-- ==== Sys2Proof/Word.lean ====
section
/-! DEFINITION. The words of the part: bytes, pin sets, the big-endian order of R180's frames and
the packing of flags into a byte. -/

namespace Sys2Proof

/-- One byte of a loop frame (section 10). -/
abbrev Byte := BitVec 8

/-- A pin set (R181): pin `n` is bit `n - 1`. -/
abbrev PinSet := BitVec 10

/-- The full rack {1..10}. -/
def PinSet.full : PinSet := 0x3FF#10

/-- The number of pins in a set, |S|. -/
def PinSet.count (s : PinSet) : Nat := (List.range 10).countP fun i => s.getLsbD i

/-- Whether pin `n`, 1..10, is in the set. -/
def PinSet.has (s : PinSet) (n : Nat) : Bool := s.getLsbD (n - 1)

/-- Whether every pin of `s` is in `t`. -/
def PinSet.within (s t : PinSet) : Bool := s &&& t == s

/-- `n` as `width` bytes, most significant byte first (section 10). -/
def beBytes (width n : Nat) : List Byte :=
  (List.range width).map fun i => BitVec.ofNat 8 (n >>> (8 * (width - 1 - i)))

/-- The number that bytes hold, most significant byte first (section 10). -/
def beNat (bs : List Byte) : Nat := bs.foldl (fun n b => n * 256 + b.toNat) 0

/-- One byte of flags, bit 0 first; the bits above the given ones are 0, where no table names them
too (DESIGN CHOICE, log entry 44). -/
def flagByte (flags : List Bool) : Byte :=
  BitVec.ofNat 8 (flags.foldr (fun f n => 2 * n + f.toNat) 0)

/-- Addition that stops at a limit. -/
def satAdd (limit a b : Nat) : Nat := min limit (a + b)

end Sys2Proof
end

