-- ==== Sys2Proof/Syntax.lean ====
section
/-! DEFINITION. The commands of the part: one constructor for every row of the opcode table, and
the types of their operands. -/

namespace Sys2Proof

/-- The two lanes of the pair (section 6 of the introduction). -/
inductive Lane where
  | A
  | B
deriving DecidableEq, Repr

/-- The other lane. -/
def Lane.other : Lane → Lane
  | .A => .B
  | .B => .A

/-- The electrical level of an input line (section 4.1). -/
inductive Level where
  | low
  | high
deriving DecidableEq, Repr

/-- The other level. -/
def Level.flip : Level → Level
  | .low => .high
  | .high => .low

/-- The seven filtered input lines, in the order of R184's lines record. -/
inductive InputLine where
  | foul (lane : Lane)
  | launch (lane : Lane)
  | pit (lane : Lane)
  | estop
deriving DecidableEq, Repr

/-- One value for each of the seven input lines. -/
structure Lines (α : Type) where
  foulA : α
  foulB : α
  launchA : α
  launchB : α
  pitA : α
  pitB : α
  estop : α
deriving DecidableEq, Repr

/-- The value of one line. -/
def Lines.get {α : Type} (v : Lines α) : InputLine → α
  | .foul .A => v.foulA
  | .foul .B => v.foulB
  | .launch .A => v.launchA
  | .launch .B => v.launchB
  | .pit .A => v.pitA
  | .pit .B => v.pitB
  | .estop => v.estop

/-- The lines with the value of one replaced. -/
def Lines.set {α : Type} (v : Lines α) (l : InputLine) (x : α) : Lines α :=
  match l with
  | .foul .A => { v with foulA := x }
  | .foul .B => { v with foulB := x }
  | .launch .A => { v with launchA := x }
  | .launch .B => { v with launchB := x }
  | .pit .A => { v with pitA := x }
  | .pit .B => { v with pitB := x }
  | .estop => { v with estop := x }

/-- What is read at one 0.5 ms sample tick: the level of each input line (R60) and of
PIT_WAKE_LINE (R56). -/
structure Samples where
  lines : Lines Level
  wake : Level
deriving DecidableEq, Repr

/-- The five station positions of the pit link, 0..4 (section 6 of the introduction). -/
inductive Position where
  | pin (lane : Lane)
  | ret
  | con (lane : Lane)
deriving DecidableEq, Repr

/-- A loop frame: 64 bytes, as section 10.1 lays them out. -/
structure Frame where
  kind : Byte
  spanFirst : Byte
  spanLast : Byte
  origin : Byte
  sequence : Byte
  flags : Byte
  bodyLength : Byte
  spare : Byte
  body : Vector Byte 54
  check : BitVec 16
deriving DecidableEq, Repr

/-- What the Loop Port hands the Command Unit beside the body (section 2.1). A command is
individual when its span first equals its span last, and group otherwise. -/
structure CommandHead where
  spanFirst : Byte
  spanLast : Byte
  sequence : Byte
deriving DecidableEq, Repr

/-- Whether the command is a group command (section 2.1). -/
def CommandHead.group (h : CommandHead) : Bool := h.spanFirst != h.spanLast

/-- The state and result of an order echo (R38). The set is the DONE result of SCAN, FULL_SET and
RESPOT; the other orders have no result and it is not read. -/
inductive EchoState where
  | taken
  | done (set : PinSet)
  | refused (reason : Byte)
deriving DecidableEq, Repr

/-- An order echo (R38): a tag of one bit (R185) and a state. -/
structure Echo where
  tag : Bool
  state : EchoState
deriving DecidableEq, Repr

/-- A console request (R38, R49): a tag, a kind as coded in R185 (code 3 is unknown), and the
arguments of CORRECT. -/
structure Request where
  tag : Bool
  kind : BitVec 2
  slot : Byte
  game : Byte
  frame : Byte
  ball : Byte
  pinfall : Byte
deriving DecidableEq, Repr

/-- A good station report (R38). The counter is a pinsetter's lift counter or the return's arrival
counter; the occupancy is the return's; the request is a console's. The condition is 0 for OK,
otherwise the station's fault code (R185). -/
structure Report where
  ready : Bool
  wake : Bool
  condition : Byte
  echo : Option Echo
  counter : BitVec 4
  occupancy : Fin 11
  request : Option Request
deriving DecidableEq, Repr

/-- The commands: the rows of spec/opcode_table.json, in its order. A desk command carries its head
and its arguments as R184 encodes them, so that the checks of R20 have something to check. -/
inductive Instr where
  | powerOn (strap : BitVec 6)
  | loopFrameArrival (frame : Frame)
  | broadcastBandHold (index : Option Byte)
  | centreHold (set : Bool)
  | broadcastQuiet
  | broadcastWake
  | loopDown
  | unknownCommand (head : CommandHead) (code : Byte)
  | statusRead (head : CommandHead) (clear : Byte)
  | accountRead (head : CommandHead) (lane : Byte)
  | settlementRead (head : CommandHead) (lane : Byte)
  | rosterRead (head : CommandHead)
  | scoreRead (head : CommandHead) (slot game : Byte)
  | stationRead (head : CommandHead) (position : Byte)
  | transitRead (head : CommandHead)
  | stationQuery (head : CommandHead) (position : Byte)
  | tableLoadRates (head : CommandHead) (record : List Byte)
  | tableLoadTiming (head : CommandHead) (record : List Byte)
  | tableLoadLines (head : CommandHead) (record : List Byte)
  | tableLoadGroups (head : CommandHead) (record : List Byte)
  | sessionSet (head : CommandHead) (mode format limit crossStart : Byte)
  | sessionEnd (head : CommandHead)
  | certify (head : CommandHead)
  | laneOpen (head : CommandHead) (lane method practice : Byte) (credit warn : BitVec 32)
  | laneClose (head : CommandHead) (lane force : Byte)
  | creditAdd (head : CommandHead) (lane : Byte) (amount : BitVec 32)
  | rosterAdd (head : CommandHead) (slot target : Byte)
  | rosterMove (head : CommandHead) (slot lane : Byte)
  | rosterWithdraw (head : CommandHead) (slot : Byte)
  | skip (head : CommandHead) (lane : Byte)
  | scoreCorrect (head : CommandHead) (slot game frame ball pinfall : Byte)
  | hold (head : CommandHead) (lane action : Byte)
  | faultClearLane (head : CommandHead) (lane : Lane)
  | faultClearReturn (head : CommandHead)
  | faultClearEstop (head : CommandHead)
  | callAck (head : CommandHead) (lane : Byte)
  | override (head : CommandHead) (line value : Byte)
  | bandHold (head : CommandHead) (action index : Byte)
  | pitRestartWarm (head : CommandHead)
  | pitRestartCold (head : CommandHead)
  | pitQuiet (head : CommandHead)
  | pitWake (head : CommandHead)
  | reset (head : CommandHead)
  | warmReset
  | roundStart
  | wakeMinimum
  | reportArrival (position : Position) (report : Report)
  | reportWindowClose (position : Position)
  | wakeLine
  | firstAcceptance (line : InputLine) (level : Level)
  | launch (lane : Lane)
  | pitArrival (lane : Lane)
  | foulEdge (lane : Lane)
  | foulIndicationExpiry (lane : Lane)
  | pendingFoulExpiry (lane : Lane)
  | inactiveEdge (line : InputLine)
  | lineStuck (line : InputLine)
  | estopActiveEdge
  | settleExpiry (lane : Lane)
  | orderTimeout (lane : Lane)
  | flightTimeout (lane : Lane)
  | pitTimeout (lane : Lane)
  | trackTimeout
  | idleExpiry
  | closeTimeout (lane : Lane)
  | billingTick
  | centreTimeStale
  | sampleTick (samples : Samples)
deriving DecidableEq, Repr

end Sys2Proof
end

