-- ==== Sys2Proof/Decode.lean ====
section
/-! DEFINITION. The command that a word of the opcode table spells. The table gives no row any
bits: a command of the desk is spelled by a loop frame (chapter 10), which the Loop Port reads
(Machine/LoopPort.lean), and the other rows are events. So no word spells a command. -/

namespace Sys2Proof

/-- No row of the table has bits, so every word is refused. -/
def decodeTableWord (_nbits _w : Nat) : Option Instr := none

end Sys2Proof
end

