-- ==== Sys2Proof/Config.lean ====
section
/-! DEFINITION. What the manual leaves open and the part nevertheless does. Every constant here is
opaque: no proof can see its value. The ones that take a `Nat` are applied to a counter of State
(`freeChoices`), so that each use is a fresh choice. -/

namespace Sys2Proof

/-- Whether what a frame makes the part do comes before the fresh BLANK of the same frame is filled
(R11; section 1.4: the reply and the fresh BLANK "meet at the insertion rule, and either may come
first"). -/
opaque Config.actsBeforeBlank : Nat → Bool

/-- Whether lane A is handled before lane B where one event is handed to both lanes and no rule
orders them (R7 CENTRE_HOLD, R68, R69, R168). -/
opaque Config.laneAFirst : Nat → Bool

/-- The millisecond count after 2^48 - 1, which R163 says is not reached in service. -/
opaque Config.timeBaseAfterLast : BitVec 48

/-- A series sum that would pass 4,294,967,295, the limit of R151. -/
opaque Config.seriesBeyondLimit : Nat → BitVec 32

/-- The series sum after a correction of a stored game (R157, step 4) whose old total is more than
the sum, so that no sum of R151's range falls by it: the sum, the old total and the new one. -/
opaque Config.seriesBelowZero : Nat → Nat → Nat → BitVec 32

/-- The two bytes of a settlement's minutes billed when the rounding of R176 takes them past
65,535, more than their two bytes hold. -/
opaque Config.minutesBeyondField : Nat → BitVec 16

end Sys2Proof
end

