-- ==== Sys2Proof/Machine/State.lean ====
section
/-! DEFINITION. The state of the part, block by block, as plain data; the reasons a step can stop;
the state after power-on. Every structure names the section that gives its fields. -/

namespace Sys2Proof.Machine

/-- One value for each lane. -/
structure LanePair (α : Type) where
  a : α
  b : α
deriving DecidableEq, Repr

/-- The value of one lane. -/
def LanePair.get {α : Type} (p : LanePair α) : Lane → α
  | .A => p.a
  | .B => p.b

/-- The pair with one lane's value replaced. -/
def LanePair.set {α : Type} (p : LanePair α) (x : Lane) (v : α) : LanePair α :=
  match x with
  | .A => { p with a := v }
  | .B => { p with b := v }

/-- The same value for both lanes. -/
def LanePair.both {α : Type} (v : α) : LanePair α := ⟨v, v⟩

/-- One value for each station position, 0 to 4. -/
structure Stations (α : Type) where
  pinA : α
  pinB : α
  ret : α
  conA : α
  conB : α
deriving DecidableEq, Repr

/-- The value of one position. -/
def Stations.get {α : Type} (v : Stations α) : Position → α
  | .pin .A => v.pinA
  | .pin .B => v.pinB
  | .ret => v.ret
  | .con .A => v.conA
  | .con .B => v.conB

/-- The positions with the value of one replaced. -/
def Stations.set {α : Type} (v : Stations α) (p : Position) (x : α) : Stations α :=
  match p with
  | .pin .A => { v with pinA := x }
  | .pin .B => { v with pinB := x }
  | .ret => { v with ret := x }
  | .con .A => { v with conA := x }
  | .con .B => { v with conB := x }

/-- The same value at every position. -/
def Stations.all {α : Type} (v : α) : Stations α := ⟨v, v, v, v, v⟩

/-- A roster slot, 0..11. -/
abbrev Slot := Fin 12

/-! ### Status codes and notices (sections 2.2 and 2.9) -/

/-- The status codes of section 2.2. -/
inductive Status where
  | done
  | doneClamped
  | busy
  | unknown
  | range
  | state
  | locked
  | full
  | classChange
  | inPlay
  | noRates
deriving DecidableEq, Repr

/-- The fault codes of section 5.7. -/
inductive FaultCode where
  | station
  | orderRefused
  | cycleTimeout
  | scanTimeout
  | setMismatch
  | pitJam
  | link
  | trigger
  | estop
deriving DecidableEq, Repr

/-- The return fault codes of section 6.7. -/
inductive ReturnFaultCode where
  | trackJam
  | overfull
  | returnLink
  | returnStation
deriving DecidableEq, Repr

/-- The kind of a charge (section 9.3). -/
inductive ChargeKind where
  | game
  | bowler
deriving DecidableEq, Repr

/-- The method of an account (section 9.3). -/
inductive Method where
  | perTime
  | perGame
  | perBowler
deriving DecidableEq, Repr

/-- The cause of a LOCK notice (R172). -/
inductive LockCause where
  | creditUsed
  | chargePending (slot : Slot) (kind : ChargeKind)
deriving DecidableEq, Repr

/-- The cause of an UNLOCK notice (R172). -/
inductive UnlockCause where
  | creditAdded
  | chargeMade
  | chargeCancelled
deriving DecidableEq, Repr

/-- The validity of centre time (R164). -/
inductive Validity where
  | invalid
  | valid
  | stale
deriving DecidableEq, Repr

/-- A centre minute with its validity; the minute is absent when INVALID (R181). -/
structure StampedMinute where
  minute : Option Nat
  validity : Validity
deriving DecidableEq, Repr

/-- The settlement record of R177. -/
structure Settlement where
  lane : Lane
  method : Method
  openedAt : StampedMinute
  closedAt : StampedMinute
  minutesBilled : Nat
  stoppageMinutes : Nat
  gamesCharged : Nat
  bowlersCharged : Nat
  charge : Nat
  credit : Option Nat
  clamped : Bool
  saturated : Bool
  forced : Bool
  writeOffs : Bool
deriving DecidableEq, Repr

/-- The marks of a ball entry (R146). -/
structure Marks where
  strike : Bool
  spare : Bool
  foul : Bool
  split : Bool
  gutter : Bool
deriving DecidableEq, Repr

/-- A ball entry (section 8.1). -/
structure BallEntry where
  before : Nat
  pinfall : Nat
  value : Nat
  marks : Marks
  speed : Option Nat
  inferred : Bool
  doubt : Bool
deriving DecidableEq, Repr

/-- A frame record (section 8.1). -/
structure FrameRecord where
  balls : List BallEntry
  score : Option Nat
  total : Option Nat
deriving DecidableEq, Repr

/-- Where a correction came from (R158). -/
inductive CorrectionSource where
  | desk
  | console (lane : Lane)
deriving DecidableEq, Repr

/-- What a FAULT_CLEARED notice names (R34). -/
inductive ClearedTarget where
  | lane (lane : Lane)
  | ret
  | estop
deriving DecidableEq, Repr

/-- The kinds of notice and what each carries (R34, R185). -/
inductive NoticeBody where
  | ball (lane : Lane) (slot : Slot) (frame ball : Nat) (entry : BallEntry)
      (score total : Option Nat)
  | ballLost (lane : Lane) (launch : Nat)
  | gameEnd (slot : Slot) (total series : Nat)
  | fault (lane : Lane) (code : FaultCode) (station : Option Byte)
  | faultCleared (target : ClearedTarget)
  | returnFault (code : ReturnFaultCode) (station : Option Byte)
  | lineFault (line : InputLine) (stuck : Bool)
  | estop
  | scanDoubt (lane : Lane) (reported before used : PinSet)
  | station (position : Position) (ready : Bool)
  | creditLow (lane : Lane) (remaining : Nat)
  | lock (lane : Lane) (cause : LockCause)
  | unlock (lane : Lane) (cause : UnlockCause)
  | settlement (record : Settlement)
  | call (lane : Lane)
  | correction (source : CorrectionSource) (slot : Slot) (game frame ball old new : Nat)
      (total : Option Nat) (series : Nat)
  | commandRefused (broadcast : Bool) (code sequence : Byte) (status : Status)
  | loopRestored (seconds : Nat)
deriving DecidableEq, Repr

/-- An entry of the notice queue (R33): what is carried, and the time base at the offer. -/
structure Notice where
  body : NoticeBody
  time : Nat
deriving DecidableEq, Repr

/-- An entry of the reply queue (R12). The body begins with the reply head of R182. -/
structure Reply where
  sequence : Byte
  status : Status
  body : List Byte
deriving DecidableEq, Repr

/-! ### Loop Port (chapter 1) -/

/-- The seven loop counters of R17, each 0..65,535. -/
structure LoopCounters where
  checkErrors : Nat
  malformed : Nat
  dropped : Nat
  loopDowns : Nat
  beacons : Nat
  repliesSent : Nat
  noticesSent : Nat
deriving DecidableEq, Repr

/-- All counters at 0. -/
def LoopCounters.zero : LoopCounters := ⟨0, 0, 0, 0, 0, 0, 0⟩

/-- The Loop Port (R18). The REPEATER state is pair number 0 (R2). `groups` has bit `n` set for
each member `n` of the group set (R8). `out` is the frame last sent at LOOP_OUT. -/
structure LoopPort where
  pairNumber : BitVec 6
  up : Bool
  timer : Option Nat
  downTime : Nat
  groups : BitVec 16
  replies : List Reply
  notices : List Notice
  noticesLost : Bool
  counters : LoopCounters
  out : Option Frame
deriving DecidableEq, Repr

/-! ### Command Unit (chapter 2) -/

/-- What a deferred command still needs to complete (R22). `resetting ahead`: replies that stand
ahead of the RESET's own reply (R31). `query position carried missed`: whether a round head has
carried the mark, and the rounds missed since (R48). -/
inductive DeferredWork where
  | closing (lane : Lane)
  | restarting
  | waking
  | query (position : Position) (carried : Bool) (missed : Nat)
  | resetting (ahead : Nat)
deriving DecidableEq, Repr

/-- The deferred-command record (R22), present while the command slot is held. -/
structure Deferred where
  code : Byte
  sequence : Byte
  group : Bool
  work : DeferredWork
deriving DecidableEq, Repr

/-- The fourteen parameters of the timing record (R28), in the units of its table. -/
structure Timing where
  settle : Nat
  scanTimeout : Nat
  cycleTimeout : Nat
  flightTimeout : Nat
  pitTimeout : Nat
  trackTimeout : Nat
  foulWindow : Nat
  foulLamp : Nat
  idleCutoff : Nat
  closeTimeout : Nat
  gateDistance : Nat
  roundPeriod : Nat
  missLimit : Nat
  foulStuck : Nat
deriving DecidableEq, Repr

/-- The defaults of R28. -/
def Timing.default : Timing :=
  { settle := 2500, scanTimeout := 3000, cycleTimeout := 12000, flightTimeout := 10000,
    pitTimeout := 15000, trackTimeout := 20000, foulWindow := 1500, foulLamp := 3,
    idleCutoff := 120, closeTimeout := 60, gateDistance := 1830, roundPeriod := 5,
    missLimit := 3, foulStuck := 10 }

/-- One line's entry of the lines record (R29). -/
structure LineSetting where
  polarity : Level
  count : Nat
deriving DecidableEq, Repr

/-- The lines record (R29). -/
structure LinesRecord where
  settings : Lines LineSetting
  foulOn : LanePair Bool
deriving DecidableEq, Repr

/-- The defaults of R29. -/
def LinesRecord.default : LinesRecord :=
  { settings := ⟨⟨.high, 3⟩, ⟨.high, 3⟩, ⟨.high, 3⟩, ⟨.high, 3⟩, ⟨.high, 3⟩, ⟨.high, 3⟩, ⟨.low, 5⟩⟩
    foulOn := .both true }

/-- The Command Unit: the command slot with its deferred-command record, and the records it loads
(R35). -/
structure CommandUnit where
  slot : Option Deferred
  timing : Timing
  lines : LinesRecord
deriving DecidableEq, Repr

/-! ### Pit Link Controller (chapter 3) -/

/-- The link state (section 3.1). -/
inductive LinkState where
  | running
  | waking
  | quiet
deriving DecidableEq, Repr

/-- The station states of section 3.2. -/
inductive StationState where
  | absent
  | joining
  | ready
  | lost
  | quiet
deriving DecidableEq, Repr

/-- The six orders of a sequencer (section 5.4). -/
inductive PinOrder where
  | scan
  | fullSet
  | respot (set : PinSet)
  | liftOnly
  | park
  | clear
deriving DecidableEq, Repr

/-- A part of a game that a console item names (R52): a frame 1..10, or TOTAL. -/
inductive ItemPart where
  | frame (number : Nat)
  | total
deriving DecidableEq, Repr

/-- A score item of a dirty list (R52). -/
structure Item where
  slot : Slot
  game : Fin 4
  part : ItemPart
deriving DecidableEq, Repr

/-- The content of a DISPLAY order (R53, R160). -/
inductive DisplayContent where
  | absent
  | frame (record : FrameRecord)
  | total (gameTotal : Option Nat) (series : Nat)
deriving DecidableEq, Repr

/-- The orders of the pit link (R37). -/
inductive Order where
  | pin (order : PinOrder)
  | display (item : Item) (content : DisplayContent)
  | answer (tag : Bool) (kind : BitVec 2) (status : Status)
deriving DecidableEq, Repr

/-- An order in an order slot (R42, R43). -/
structure SlotOrder where
  order : Order
  tag : Bool
  taken : Bool
deriving DecidableEq, Repr

/-- The console banner (R45). -/
inductive Banner where
  | closed
  | opened
  | locked
  | held
  | fault
deriving DecidableEq, Repr

/-- The value of a standing-state cell (R37). -/
inductive Standing where
  | pin (guardUp lightOn : Bool)
  | con (banner : Banner)
deriving DecidableEq, Repr

/-- The report cache (R47). -/
structure CachedReport where
  report : Report
  round : BitVec 8
deriving DecidableEq, Repr

/-- The answer record of a console (section 3.6). -/
structure Answer where
  tag : Bool
  kind : BitVec 2
  status : Status
deriving DecidableEq, Repr

/-- A position record (chapter 3). `rejoin` is set from an entry into JOINING by a wake or a warm
restart until the next good report, at which the station's tags are taken (R39). `cell` is the
standing state, absent while invalid. -/
structure Station where
  state : StationState
  slot : Option SlotOrder
  nextTag : Bool
  cell : Option Standing
  cache : Option CachedReport
  baseline : Option (BitVec 4)
  misses : Nat
  queryMark : Bool
  rejoin : Bool
  requestTag : Option Bool
  answer : Option Answer
deriving DecidableEq, Repr

/-- A position record after power-on (R59). -/
def Station.initial : Station :=
  { state := .absent, slot := none, nextTag := false, cell := none, cache := none,
    baseline := none, misses := 0, queryMark := false, rejoin := false, requestTag := none,
    answer := none }

/-- The head of a round (R36). -/
structure RoundHead where
  number : BitVec 8
  quiet : Bool
  marks : Stations Bool
deriving DecidableEq, Repr

/-- The round in progress: its number and quiet mark, the position whose report window is open, and
whether that window has had its good report. -/
structure Round where
  number : BitVec 8
  quiet : Bool
  position : Position
  reported : Bool
deriving DecidableEq, Repr

/-- An outbound cell as it left (R37). -/
structure SentCell where
  position : Position
  order : Option SlotOrder
  standing : Option Standing
deriving DecidableEq, Repr

/-- The Pit Link Controller (R59). `head` and `sent` are the last round head and the last outbound
cell on PIT_LINK. -/
structure PitLink where
  state : LinkState
  quietPending : Bool
  wakeHeld : Bool
  quietEntry : Option Nat
  roundTimer : Option Nat
  nextRound : BitVec 8
  round : Option Round
  head : Option RoundHead
  sent : Option SentCell
  stations : Stations Station
  dirty : LanePair (List Item)
  call : LanePair Bool
deriving DecidableEq, Repr

/-! ### Line Unit (chapter 4) -/

/-- The three kinds of acceptance (R61, R62). -/
inductive EdgeKind where
  | first
  | active
  | inactive
deriving DecidableEq, Repr

/-- An acceptance that a sample tick has made and whose step has not been taken. -/
structure LineEvent where
  kind : EdgeKind
  level : Level
  time : Nat
deriving DecidableEq, Repr

/-- An input line (sections 4.1 and 4.3). `runLevel` is the level of the run while the accepted
level is unknown (R61). -/
structure LineState where
  accepted : Option Level
  run : Nat
  runLevel : Level
  events : List LineEvent
  stuckTimer : Option Nat
  stuck : Bool
deriving DecidableEq, Repr

/-- A line after either reset (R77). -/
def LineState.initial : LineState :=
  { accepted := none, run := 0, runLevel := .low, events := [], stuckTimer := none, stuck := false }

/-- The value of a lamp or of DESK_CALL (R74, R75). -/
inductive LampValue where
  | off
  | steady
  | slow
  | fast
deriving DecidableEq, Repr

/-- The five output lines (section 4.5), as arbitrated. -/
structure Outputs where
  pairPower : Bool
  returnMotor : Bool
  lamp : LanePair LampValue
  deskCall : LampValue
deriving DecidableEq, Repr

/-- The Line Unit (R77). A foul indication is raised while its timer runs (R74). -/
structure LineUnit where
  lines : Lines LineState
  wake : LineState
  estop : Bool
  powerOverride : Option Bool
  motorOverride : Option Bool
  foulLamp : LanePair (Option Nat)
  outputs : Outputs
deriving DecidableEq, Repr

/-! ### Pinsetter Sequencers (chapter 5) -/

/-- The twelve states of section 5.2. -/
inductive SeqState where
  | parked
  | starting
  | ready
  | held
  | ballOut
  | settle
  | scan
  | liftWait
  | cycling
  | fault
  | recover
  | parking
deriving DecidableEq, Repr

/-- The six hold reasons (section 5.3). -/
inductive HoldReason where
  | credit
  | noBowler
  | handover
  | desk
  | centre
  | closing
deriving DecidableEq, Repr

/-- A hold-reason set (section 5.1), each reason at most once. -/
structure HoldSet where
  credit : Bool
  noBowler : Bool
  handover : Bool
  desk : Bool
  centre : Bool
  closing : Bool
deriving DecidableEq, Repr

/-- The empty set. -/
def HoldSet.empty : HoldSet := ⟨false, false, false, false, false, false⟩

/-- Whether a reason is in the set. -/
def HoldSet.has (h : HoldSet) : HoldReason → Bool
  | .credit => h.credit
  | .noBowler => h.noBowler
  | .handover => h.handover
  | .desk => h.desk
  | .centre => h.centre
  | .closing => h.closing

/-- The set with a reason put in or taken out. -/
def HoldSet.put (h : HoldSet) (r : HoldReason) (v : Bool) : HoldSet :=
  match r with
  | .credit => { h with credit := v }
  | .noBowler => { h with noBowler := v }
  | .handover => { h with handover := v }
  | .desk => { h with desk := v }
  | .centre => { h with centre := v }
  | .closing => { h with closing := v }

/-- The outstanding order (section 5.1): posted in the slot, or wanted. -/
structure OutOrder where
  order : PinOrder
  posted : Bool
deriving DecidableEq, Repr

/-- The place request (R84): the places asked for and the order that waits for them. -/
structure PlaceRequest where
  count : Nat
  order : PinOrder
deriving DecidableEq, Repr

/-- The fault record (section 5.1). -/
structure FaultRecord where
  code : FaultCode
  station : Option Byte
deriving DecidableEq, Repr

/-- A sequencer record (section 5.1). `scored` refers to the scored ball's transit record by its
`id`. A resume record with no order means a SCAN (R94). `condition` is 0 for OK. -/
structure Sequencer where
  state : SeqState
  holds : HoldSet
  standing : PinSet
  practice : Bool
  scored : Option Nat
  retry : Bool
  order : Option OutOrder
  place : Option PlaceRequest
  settleTimer : Option Nat
  orderTimer : Option Nat
  fault : Option FaultRecord
  resume : Option PinOrder
  clearStep : Bool
  startPending : Bool
  parkPending : Bool
  pitStuck : Bool
  condition : Byte
deriving DecidableEq, Repr

/-- A sequencer after power-on (R103), with the NO_BOWLER that the Roster Unit adds (R142). -/
def Sequencer.initial : Sequencer :=
  { state := .parked, holds := { HoldSet.empty with noBowler := true }, standing := 0#10,
    practice := false, scored := none, retry := false, order := none, place := none,
    settleTimer := none, orderTimer := none, fault := none, resume := none, clearStep := false,
    startPending := false, parkPending := false, pitStuck := false, condition := 0#8 }

/-! ### Transit Monitor (chapter 6) -/

/-- A transit timer (R119): stopped, running to a time-base value, or frozen with its remaining
time while ESTOP is latched. -/
inductive TransitTimer where
  | stopped
  | running (expiry : Nat)
  | frozen (remaining : Nat)
deriving DecidableEq, Repr

/-- A ball record (section 6.1). `id` tells records apart, so that a sequencer can refer to one. -/
structure BallRecord where
  id : Nat
  lane : Lane
  launch : Option Nat
  slot : Option Slot
  scored : Bool
  foul : Bool
  inferred : Bool
  speed : Option Nat
deriving DecidableEq, Repr

/-- The scored-ball copy (R108). -/
structure ScoredCopy where
  slot : Option Slot
  foul : Bool
  inferred : Bool
  speed : Option Nat
deriving DecidableEq, Repr

/-- A track entry (section 6.1). -/
structure TrackEntry where
  lane : Lane
  time : Nat
deriving DecidableEq, Repr

/-- A request of the waiter list (section 6.6). -/
structure Waiter where
  lane : Lane
  count : Nat
deriving DecidableEq, Repr

/-- The return fault (section 6.7). -/
structure ReturnFault where
  code : ReturnFaultCode
  station : Option Byte
deriving DecidableEq, Repr

/-- What the Transit Monitor keeps for one lane. A pending foul is absent while its timer is
stopped (section 6.2). -/
structure LaneTransit where
  inFlight : List BallRecord
  pitHold : List BallRecord
  lost : Nat
  pendingFoul : TransitTimer
  flightTimer : TransitTimer
  pitTimer : TransitTimer
  liftOut : Bool
  reservation : Nat
  copy : Option ScoredCopy
  closeWatch : Bool
deriving DecidableEq, Repr

/-- A lane's transit state after either reset (R124). -/
def LaneTransit.initial : LaneTransit :=
  { inFlight := [], pitHold := [], lost := 0, pendingFoul := .stopped, flightTimer := .stopped,
    pitTimer := .stopped, liftOut := false, reservation := 0, copy := none, closeWatch := false }

/-- The Transit Monitor (R124), with the conservation counters of R122, which wrap. -/
structure Transit where
  lanes : LanePair LaneTransit
  track : List TrackEntry
  waiters : List Waiter
  rack : Fin 11
  trackTimer : TransitTimer
  idleTimer : TransitTimer
  fault : Option ReturnFault
  frozen : Bool
  seen : BitVec 32
  inferred : BitVec 32
  matched : BitVec 32
  writeOffs : BitVec 32
  strays : BitVec 32
deriving DecidableEq, Repr

/-- The transit state after either reset (R124). -/
def Transit.initial : Transit :=
  { lanes := .both .initial, track := [], waiters := [], rack := 0, trackTimer := .stopped,
    idleTimer := .stopped, fault := none, frozen := false, seen := 0, inferred := 0, matched := 0,
    writeOffs := 0, strays := 0 }

/-! ### Roster Unit (chapter 7) -/

/-- The mode of a session (R125). -/
inductive Mode where
  | opened
  | cross
deriving DecidableEq, Repr

/-- The format of a session (R125). -/
inductive Format where
  | tenPin
  | nineTap
deriving DecidableEq, Repr

/-- The session record (R125). -/
structure Session where
  mode : Mode
  format : Format
  limit : Nat
  crossStart : Lane
deriving DecidableEq, Repr

/-- The two teams of a CROSS session. -/
inductive Team where
  | one
  | two
deriving DecidableEq, Repr

/-- The status of a roster entry (section 7.2). -/
inductive BowlerStatus where
  | waiting
  | up
  | handover
  | done
  | withdrawn
deriving DecidableEq, Repr

/-- A roster entry (section 7.2); its slot is its place in the roster. -/
structure RosterEntry where
  status : BowlerStatus
  team : Option Team
  lane : Lane
  games : Nat
  pendingWithdraw : Bool
  chargedSession : Bool
  gameCharged : Bool
deriving DecidableEq, Repr

/-- The Roster Unit (R142). Team 2's lane is opposite to team 1's (R132). -/
structure Roster where
  session : Session
  entries : Vector (Option RosterEntry) 12
  queues : LanePair (List Slot)
  handover1 : List Slot
  handover2 : List Slot
  team1Lane : Lane
  practice : LanePair Bool
deriving DecidableEq, Repr

/-! ### Score Engine (chapter 8) -/

/-- A stored game (section 8.1). -/
structure StoredGame where
  frames : List FrameRecord
  total : Nat
deriving DecidableEq, Repr

/-- An entry of the pending bonus list (R149). -/
structure BonusWait where
  frame : Nat
  needed : Nat
deriving DecidableEq, Repr

/-- A bowler record (section 8.1). -/
structure Bowler where
  current : List FrameRecord
  bonuses : List BonusWait
  stored : List StoredGame
  series : Nat
deriving DecidableEq, Repr

/-- A new bowler's record (R143). -/
def Bowler.new : Bowler := ⟨[], [], [], 0⟩

/-- The Score Engine (R162). -/
structure ScoreEngine where
  bowlers : Vector (Option Bowler) 12
  certified : Bool
deriving DecidableEq, Repr

/-! ### Account Unit and Time Base (chapter 9) -/

/-- The states of a lane account (section 9.3). -/
inductive AccountState where
  | closed
  | opened
  | locked
  | closing
deriving DecidableEq, Repr

/-- A pending charge (section 9.3). -/
structure PendingCharge where
  slot : Slot
  kind : ChargeKind
deriving DecidableEq, Repr

/-- A lane account (section 9.3). -/
structure Account where
  state : AccountState
  method : Method
  practice : Bool
  credit : Option Nat
  warn : Nat
  warned : Bool
  meter : Nat
  saturated : Bool
  minutesBilled : Nat
  stoppageMinutes : Nat
  gamesCharged : Nat
  bowlersCharged : Nat
  pending : Option PendingCharge
  openedAt : StampedMinute
  closeTimer : Option Nat
  forced : Bool
  writeOffs : Bool
  last : Option Settlement
deriving DecidableEq, Repr

/-- An account after power-on (R179). -/
def Account.initial : Account :=
  { state := .closed, method := .perTime, practice := false, credit := none, warn := 0,
    warned := false, meter := 0, saturated := false, minutesBilled := 0, stoppageMinutes := 0,
    gamesCharged := 0, bowlersCharged := 0, pending := none, openedAt := ⟨none, .invalid⟩,
    closeTimer := none, forced := false, writeOffs := false, last := none }

/-- A band of the rate table (section 9.2). -/
structure Band where
  start : Nat
  game : Nat
  hour : Nat
  bowler : Nat
deriving DecidableEq, Repr

/-- The rate table with its header (section 9.2). -/
structure RateTable where
  minimum : Nat
  increment : Nat
  bands : List Band
deriving DecidableEq, Repr

/-- Centre time as a beacon set it (R164): the second of the day it gave, the time base at its
arrival, and whether it has gone STALE. -/
structure CentreTime where
  second : Nat
  anchor : Nat
  stale : Bool
deriving DecidableEq, Repr

/-- The Account Unit (R179). -/
structure AccountUnit where
  accounts : LanePair Account
  rates : RateTable
  bandHold : Option Nat
  centre : Option CentreTime
  staleTimer : Option Nat
deriving DecidableEq, Repr

/-- The Time Base (R163): the milliseconds since power-on, the half millisecond of the sample
tick, and the time-base value of the next billing tick. -/
structure TimeBase where
  ms : Nat
  half : Bool
  nextTick : Nat
deriving DecidableEq, Repr

/-! ### The whole part -/

/-- The state of the part. `pending` is the queue of the commands that wait; `freeChoices` and
`nextBall` are the model's own (the uses made of Config's free choices, and the id of the next ball
record). -/
structure State where
  pending : List Instr
  loop : LoopPort
  command : CommandUnit
  link : PitLink
  line : LineUnit
  seqs : LanePair Sequencer
  transit : Transit
  roster : Roster
  score : ScoreEngine
  account : AccountUnit
  time : TimeBase
  freeChoices : Nat
  nextBall : Nat
deriving DecidableEq, Repr

/-- The reasons a step can stop with a fault. There is none: the part reports its faults in its
state and by notices, and goes on. -/
inductive Fault where
deriving DecidableEq, Repr

/-- The reasons a step can be refused. -/
inductive Refusal where
  /-- Raised by `exec` for a row that has no meaning in this model. Safe: the run stops. -/
  | notModelled (mnemonic : String)
deriving DecidableEq, Repr

/-- The output lines with nothing driving them (R77). -/
def Outputs.initial : Outputs :=
  { pairPower := false, returnMotor := false, lamp := .both .off, deskCall := .off }

/-- The state at power-on with a strapped pair number: every table of power-on values (R18, R35,
R59, R77, R103, R124, R142, R162, R179). The first round starts at once (R59), so its head and the
cell of position 0 have been sent. -/
def State.powerOn (strap : BitVec 6) : State :=
  { pending := []
    loop :=
      { pairNumber := strap, up := false, timer := none, downTime := 0, groups := 0, replies := [],
        notices := [], noticesLost := false, counters := .zero, out := none }
    command := { slot := none, timing := .default, lines := .default }
    link :=
      { state := .running, quietPending := false, wakeHeld := false, quietEntry := none,
        roundTimer := some 5, nextRound := 1,
        round := some ⟨0, false, .pin .A, false⟩,
        head := some ⟨0, false, .all false⟩,
        sent := some ⟨.pin .A, none, none⟩,
        stations := .all .initial, dirty := .both [], call := .both false }
    line :=
      { lines := ⟨.initial, .initial, .initial, .initial, .initial, .initial, .initial⟩,
        wake := .initial, estop := false, powerOverride := none, motorOverride := none,
        foulLamp := .both none, outputs := .initial }
    seqs := .both .initial
    transit := .initial
    roster :=
      { session := ⟨.opened, .tenPin, 0, .A⟩, entries := Vector.replicate 12 none,
        queues := .both [], handover1 := [], handover2 := [], team1Lane := .A,
        practice := .both false }
    score := { bowlers := Vector.replicate 12 none, certified := false }
    account :=
      { accounts := .both .initial, rates := ⟨0, 1, []⟩, bandHold := none, centre := none,
        staleTimer := none }
    time := { ms := 0, half := false, nextTick := 60000 }
    freeChoices := 0
    nextBall := 0 }

/-- The machine right after reset: power-on with the strap at pair 1 (DESIGN CHOICE, log entry 1:
the strap is the installer's; POWER_ON takes any). -/
def State.reset : State := State.powerOn 1

end Sys2Proof.Machine
end

