-- ==== Sys2Proof/Machine/Ops.lean ====
section
/-! DEFINITION. The operations every block uses: reading and changing one block's part of the
state, notices, replies, the end of a deferred command, timers, and the order of two lanes. -/

namespace Sys2Proof.Machine

/-! ### One part of the state -/

/-- Sequencer `x`. -/
def State.seq (s : State) (x : Lane) : Sequencer := s.seqs.get x

/-- Change sequencer `x`. -/
def State.modSeq (s : State) (x : Lane) (f : Sequencer → Sequencer) : State :=
  { s with seqs := s.seqs.set x (f (s.seqs.get x)) }

/-- The transit state of lane `x`. -/
def State.laneTransit (s : State) (x : Lane) : LaneTransit := s.transit.lanes.get x

/-- Change the Transit Monitor. -/
def State.modTransit (s : State) (f : Transit → Transit) : State :=
  { s with transit := f s.transit }

/-- Change the transit state of lane `x`. -/
def State.modLane (s : State) (x : Lane) (f : LaneTransit → LaneTransit) : State :=
  s.modTransit fun t => { t with lanes := t.lanes.set x (f (t.lanes.get x)) }

/-- The account of lane `x`. -/
def State.acct (s : State) (x : Lane) : Account := s.account.accounts.get x

/-- Change the account of lane `x`. -/
def State.modAcct (s : State) (x : Lane) (f : Account → Account) : State :=
  { s with account :=
      { s.account with accounts := s.account.accounts.set x (f (s.account.accounts.get x)) } }

/-- Change the Pit Link Controller. -/
def State.modLink (s : State) (f : PitLink → PitLink) : State := { s with link := f s.link }

/-- The record of a station position. -/
def State.station (s : State) (p : Position) : Station := s.link.stations.get p

/-- Change the record of a station position. -/
def State.modStation (s : State) (p : Position) (f : Station → Station) : State :=
  s.modLink fun l => { l with stations := l.stations.set p (f (l.stations.get p)) }

/-- Change the Loop Port. -/
def State.modLoop (s : State) (f : LoopPort → LoopPort) : State := { s with loop := f s.loop }

/-- Change the Line Unit. -/
def State.modLineUnit (s : State) (f : LineUnit → LineUnit) : State := { s with line := f s.line }

/-- Change one input line. -/
def State.modInput (s : State) (l : InputLine) (f : LineState → LineState) : State :=
  s.modLineUnit fun u => { u with lines := u.lines.set l (f (u.lines.get l)) }

/-- The roster entry of a slot, if it is occupied (section 7.2). -/
def State.entry (s : State) (k : Slot) : Option RosterEntry := s.roster.entries.get k

/-- Change the Roster Unit. -/
def State.modRoster (s : State) (f : Roster → Roster) : State := { s with roster := f s.roster }

/-- Change the roster entry of a slot, where there is one. -/
def State.modEntry (s : State) (k : Slot) (f : RosterEntry → RosterEntry) : State :=
  s.modRoster fun r =>
    { r with entries := r.entries.set k.val ((r.entries.get k).map f) k.isLt }

/-- The bowler record of a slot, if there is one (section 8.1). -/
def State.bowler (s : State) (k : Slot) : Option Bowler := s.score.bowlers.get k

/-- Put or remove the bowler record of a slot. -/
def State.setBowler (s : State) (k : Slot) (b : Option Bowler) : State :=
  { s with score := { s.score with bowlers := s.score.bowlers.set k.val b k.isLt } }

/-- The millisecond time base (R163). -/
def State.now (s : State) : Nat := s.time.ms

/-- Whether the part is in the REPEATER state (R2). -/
def State.repeater (s : State) : Bool := s.loop.pairNumber == 0

/-! ### Time -/

/-- Whether a timer runs and has reached its expiry (R163: each expires at a time-base value fixed
when it is started). -/
def State.due (s : State) (t : Option Nat) : Bool :=
  match t with
  | some e => e ≤ s.now
  | none => false

/-- Whether a transit timer has expired; a frozen one does not (R119). -/
def State.transitDue (s : State) (t : TransitTimer) : Bool :=
  match t with
  | .running e => e ≤ s.now
  | _ => false

/-- A transit timer started for its full length: frozen with it while the latch is set (R119). -/
def State.startTimer (s : State) (length : Nat) : TransitTimer :=
  if s.transit.frozen then .frozen length else .running (s.now + length)

/-- A flight timer started to expire at a time-base value (R105): while the latch is set it
is frozen with what remains, 0 when that is negative (R119). -/
def State.startTimerAt (s : State) (expiry : Nat) : TransitTimer :=
  if s.transit.frozen then .frozen (expiry - s.now) else .running expiry

/-- A transit timer at the setting of the latch at `now` (R119). -/
def TransitTimer.freeze (now : Nat) : TransitTimer → TransitTimer
  | .running e => .frozen (e - now)
  | t => t

/-- A transit timer at the clear of the latch at `now` (R119). -/
def TransitTimer.resume (now : Nat) : TransitTimer → TransitTimer
  | .frozen r => .running (now + r)
  | t => t

/-- What is left of a transit timer, absent when it is stopped (R123). -/
def TransitTimer.remaining (now : Nat) : TransitTimer → Option Nat
  | .stopped => none
  | .running e => some (e - now)
  | .frozen r => some r

/-! ### Notices, replies and the command slot -/

/-- Offer a notice (R33): it joins while fewer than 16 wait, and otherwise sets the lost flag. In
REPEATER it is discarded without the flag (R2). -/
def offer (n : NoticeBody) (s : State) : State :=
  if s.repeater then s
  else if s.loop.notices.length < 16 then
    s.modLoop fun l => { l with notices := l.notices ++ [⟨n, s.now⟩] }
  else s.modLoop fun l => { l with noticesLost := true }

/-- Change the loop counters. -/
def count (f : LoopCounters → LoopCounters) (s : State) : State :=
  s.modLoop fun l => { l with counters := f l.counters }

/-- A loop counter raised by one, stopping at 65,535 (R17). -/
def bump (n : Nat) : Nat := satAdd 65535 n 1

/-- The code of a status (section 10.3). -/
def Status.code : Status → Byte
  | .done => 0
  | .doneClamped => 1
  | .busy => 2
  | .unknown => 3
  | .range => 4
  | .state => 5
  | .locked => 6
  | .full => 7
  | .classChange => 8
  | .inPlay => 9
  | .noRates => 10

/-- A reply joins the tail of the reply queue (R12, R182): head, then contents. -/
def addReply (code sequence : Byte) (st : Status) (contents : List Byte) (s : State) : State :=
  s.modLoop fun l =>
    { l with replies := l.replies ++ [⟨sequence, st, code :: st.code :: contents⟩] }

/-- Whether a deferred command holds a place of the reply queue (R12). The DONE reply of a RESET
stands in its own held place from the start (R31). -/
def Deferred.holdsPlace (d : Deferred) : Bool :=
  match d.work with
  | .resetting _ => false
  | _ => !d.group

/-- The places of the reply queue held for a deferred command's reply (R12), 0 or 1. -/
def heldPlaces (s : State) : Nat :=
  match s.command.slot with
  | some d => d.holdsPlace.toNat
  | none => 0

/-- The free places of the reply queue (R12). -/
def freeReplies (s : State) : Nat := 4 - s.loop.replies.length - heldPlaces s

/-- Hold the command slot, or free it. -/
def setSlot (d : Option Deferred) (s : State) : State :=
  { s with command := { s.command with slot := d } }

/-- Give the outcome of a command (R21, R24): an individual command is answered, and a group
command whose outcome is not DONE raises COMMAND_REFUSED. -/
def answer (group : Bool) (code sequence : Byte) (st : Status) (contents : List Byte)
    (s : State) : State :=
  if group then
    if st = .done then s else offer (.commandRefused false code sequence st) s
  else addReply code sequence st contents s

/-- The end of the deferred command that holds the slot (R22). -/
def completeDeferred (st : Status) (contents : List Byte) (s : State) : State :=
  match s.command.slot with
  | some d => setSlot none (answer d.group d.code d.sequence st contents s)
  | none => s

/-! ### Two lanes -/

/-- Hand one event to both lanes, in either order (a free choice). -/
def eitherOrder (f : Lane → State → State) (s : State) : State :=
  let s' := { s with freeChoices := s.freeChoices + 1 }
  if Config.laneAFirst s.freeChoices then f .B (f .A s') else f .A (f .B s')

/-- Do something `n` times, one after the other. -/
def times (f : State → State) : Nat → State → State
  | 0, s => s
  | n + 1, s => times f n (f s)

end Sys2Proof.Machine
end

