-- ==== Sys2Proof/Machine/Consoles.lean ====
section
/-! DEFINITION. Order slots, standing-state cells and the consoles' dirty lists (sections 3.3, 3.4
and 3.7): what the owners of a position do with its record. -/

namespace Sys2Proof.Machine

/-! ### Order slots (R42) -/

/-- Post an order to a position: taken when the position is READY and its slot empty; the next tag
then changes. An order that is not taken is returned (none). -/
def postOrder (p : Position) (o : Order) (s : State) : Option State :=
  if (s.station p).state = .ready ∧ (s.station p).slot = none then
    some <| s.modStation p fun r =>
      { r with slot := some ⟨o, r.nextTag, false⟩, nextTag := !r.nextTag }
  else none

/-- Empty an order slot; the next tag keeps its value. -/
def emptySlot (p : Position) (s : State) : State :=
  s.modStation p fun r => { r with slot := none }

/-! ### Standing state (R45) -/

/-- The banner of console `x`: the first case of R45's list that applies. -/
def banner (x : Lane) (s : State) : Banner :=
  if (s.acct x).state = .closed then .closed
  else if (s.seq x).state = .fault then .fault
  else if (s.acct x).state = .locked then .locked
  else if (s.acct x).state = .closing ∨ (s.seq x).state = .held then .held
  else .opened

/-- Write console `x`'s banner. -/
def writeBanner (x : Lane) (s : State) : State :=
  s.modStation (.con x) fun r => { r with cell := some (.con (banner x s)) }

/-- The guard is UP in READY alone, and the deck light OFF in PARKED alone (section 5.2, R78). -/
def SeqState.standing (st : SeqState) : Standing := .pin (st == .ready) (st != .parked)

/-- A sequencer enters a state (R78): the cell of its pinsetter and the banner of its console are
written. -/
def enterState (x : Lane) (st : SeqState) (s : State) : State :=
  writeBanner x <|
    (s.modSeq x fun q => { q with state := st }).modStation (.pin x) fun r =>
      { r with cell := some st.standing }

/-- An account changes its state; console `x`'s banner is written (R45, section 9.3). -/
def setAccountState (x : Lane) (st : AccountState) (s : State) : State :=
  writeBanner x (s.modAcct x fun a => { a with state := st })

/-! ### Dirty lists (R52) -/

/-- An item not in the list joins at the tail; one already there keeps its place. -/
def mark (list : List Item) (i : Item) : List Item := if i ∈ list then list else list ++ [i]

/-- Mark items in console `x`'s list. -/
def markConsole (x : Lane) (items : List Item) (s : State) : State :=
  s.modLink fun l => { l with dirty := l.dirty.set x (items.foldl mark (l.dirty.get x)) }

/-- Mark items in both consoles' lists (R153). -/
def markBoth (items : List Item) (s : State) : State :=
  markConsole .B items (markConsole .A items s)

/-- The eleven items of one game: frames 1..10, then TOTAL. -/
def gameItems (k : Slot) (g : Fin 4) : List Item :=
  ((List.range 10).map fun n => ⟨k, g, .frame (n + 1)⟩) ++ [⟨k, g, .total⟩]

/-- The 44 items of one slot, game index by game index. R153 orders the parts of a game alone, and
the model marks whole slots in the order that R54 gives for a refresh (DESIGN CHOICE, log entry
40). -/
def slotItems (k : Slot) : List Item := (List.finRange 4).flatMap (gameItems k)

/-- The 528 items, in the order of R54. -/
def allItems : List Item := (List.finRange 12).flatMap slotItems

/-- The series total as it is reported (section 8.1): the series sum, saturated at 65,535. -/
def Bowler.reportedSeries (b : Bowler) : Nat := min b.series 65535

/-- What an item shows (R53, R160), read from the Score Engine as it stands. -/
def displayContent (i : Item) (s : State) : DisplayContent :=
  match s.bowler i.slot with
  | none => .absent
  | some b =>
    let game : Option (List FrameRecord × Option Nat) :=
      if i.game.val = 0 then some (b.current, none)
      else (b.stored[i.game.val - 1]?).map fun g => (g.frames, some g.total)
    match game, i.part with
    | none, _ => .absent
    | some (frames, _), .frame n =>
      match frames[n - 1]? with
      | some f => .frame f
      | none => .absent
    | some (_, total), .total => .total total b.reportedSeries

/-- The service of console `x` (R50, R53): while the slot is empty, a waiting answer is posted, and
otherwise the item at the head of the dirty list. -/
def serviceConsole (x : Lane) (s : State) : State :=
  match (s.station (.con x)).answer with
  | some a => (postOrder (.con x) (.answer a.tag a.kind a.status) s).getD s
  | none =>
    match s.link.dirty.get x with
    | [] => s
    | i :: rest =>
      match postOrder (.con x) (.display i (displayContent i s)) s with
      | some s' => s'.modLink fun l => { l with dirty := l.dirty.set x rest }
      | none => s

/-- What becomes of an order slot that LOST, quiet or a restart empties (R40, R50, R53, R55, R58):
the item of a DISPLAY is marked again, and a console's answer record is emptied. -/
def abandonSlot (p : Position) (s : State) : State :=
  let old := (s.station p).slot
  let s := s.modStation p fun r => { r with slot := none, answer := none }
  match p, old with
  | .con x, some ⟨.display i _, _, _⟩ => markConsole x [i] s
  | _, _ => s

end Sys2Proof.Machine
end

