-- ==== Sys2Proof/Machine/Places.lean ====
section
/-! DEFINITION. The orders of a sequencer, the track-place arbiter, the rest point and the hold
reasons (sections 5.3, 5.4 and 6.6): the part of a sequencer's work that other blocks set off. -/

namespace Sys2Proof.Machine

/-! ### Orders and their timers (R82) -/

/-- The lift orders (section 5.4). -/
def PinOrder.isLift : PinOrder → Bool
  | .fullSet => true
  | .respot _ => true
  | .liftOnly => true
  | _ => false

/-- The length of an order's timer (R82). -/
def PinOrder.timeout (t : Timing) : PinOrder → Nat
  | .scan => t.scanTimeout
  | _ => t.cycleTimeout

/-- The pit timer of a lane as a lift order becomes outstanding, or a record joins an empty pit
hold under one (R113). -/
def startPitTimer (x : Lane) (s : State) : State :=
  s.modLane x fun l => { l with pitTimer := s.startTimer s.command.timing.pitTimeout }

/-- A lift order of lane `x` has been posted (R82, R113). -/
def liftPosted (x : Lane) (s : State) : State :=
  let s := s.modLane x fun l => { l with liftOut := true }
  if (s.laneTransit x).pitHold = [] then s else startPitTimer x s

/-- Offer sequencer `x`'s wanted order to its position (R82). At the posting the order timer starts,
and the Transit Monitor is told of a lift order. -/
def offerOrder (x : Lane) (s : State) : State :=
  match (s.seq x).order with
  | some ⟨o, false⟩ =>
    match postOrder (.pin x) (.pin o) s with
    | some s' =>
      let s' := s'.modSeq x fun q =>
        { q with
          order := some ⟨o, true⟩
          orderTimer := some (s.now + o.timeout s.command.timing) }
      if o.isLift then liftPosted x s' else s'
    | none => s
  | _ => s

/-- Issue an order (R82): it becomes the outstanding order and is offered at once. -/
def issueOrder (x : Lane) (o : PinOrder) (s : State) : State :=
  offerOrder x (s.modSeq x fun q => { q with order := some ⟨o, false⟩ })

/-! ### The arbiter (R115, R116) -/

/-- The free places of the return track (R115). -/
def freePlaces (t : Transit) : Nat :=
  8 - t.track.length - t.lanes.a.reservation - t.lanes.b.reservation

/-- Grant the head of the waiter list, `w`, with `rest` after it (R115): its count becomes the
lane's reservation and the sequencer issues the order that waited (R84). -/
def grant (w : Waiter) (rest : List Waiter) (s : State) : State :=
  let s := s.modTransit fun t => { t with waiters := rest }
  let s := s.modLane w.lane fun l => { l with reservation := w.count }
  match (s.seq w.lane).place with
  | some p =>
    let s := s.modSeq w.lane fun q => { q with place := none }
    let s := issueOrder w.lane p.order s
    if (s.seq w.lane).state = .liftWait then enterState w.lane .cycling s else s
  | none => s

/-- The grant test (R115), for at most `n` grants. -/
def grantLoop : Nat → State → State
  | 0, s => s
  | n + 1, s =>
    match s.transit.waiters with
    | [] => s
    | w :: rest =>
      if s.transit.fault = none ∧ w.count ≤ freePlaces s.transit then
        grantLoop n (grant w rest s)
      else s

/-- The grant test (R115): heads are granted until the list is empty or its head cannot be. -/
def grantTest (s : State) : State := grantLoop s.transit.waiters.length s

/-- Ask for track places for a lift order (R84): as many as the pit holds. -/
def requestPlaces (x : Lane) (o : PinOrder) (s : State) : State :=
  let n := (s.laneTransit x).pitHold.length
  let s := s.modSeq x fun q => { q with place := some ⟨n, o⟩ }
  grantTest (s.modTransit fun t => { t with waiters := t.waiters ++ [⟨x, n⟩] })

/-- Ask for places and wait for them in LIFT_WAIT, or go at once to CYCLING (R84). -/
def startCycle (x : Lane) (o : PinOrder) (s : State) : State :=
  requestPlaces x o (enterState x .liftWait s)

/-- Withdraw the place request of lane `x`, if it has one (R84, R116). -/
def withdrawPlace (x : Lane) (s : State) : State :=
  match (s.seq x).place with
  | some _ =>
    let s := s.modSeq x fun q => { q with place := none }
    grantTest <| s.modTransit fun t =>
      { t with waiters := t.waiters.filter fun w => w.lane ≠ x }
  | none => s

/-- The end of sequencer `x`'s outstanding order, however it ends (R82): the order timer stops, and
for a lift order the Transit Monitor stops the pit timer, releases the unused reservation and makes
the grant test (R113, R116). -/
def endOrder (x : Lane) (s : State) : State :=
  match (s.seq x).order with
  | some o =>
    let s := s.modSeq x fun q => { q with order := none, orderTimer := none }
    if o.order.isLift then
      grantTest <| s.modLane x fun l =>
        { l with liftOut := false, pitTimer := .stopped, reservation := 0 }
    else s
  | none => s

/-- Withdraw the outstanding order (R42, R82): a posted order leaves its slot, and the order
ends. -/
def withdrawOrder (x : Lane) (s : State) : State :=
  match (s.seq x).order with
  | some ⟨_, true⟩ => endOrder x (emptySlot (.pin x) s)
  | some ⟨_, false⟩ => endOrder x s
  | none => s

/-! ### The rest point and the hold reasons (R79 to R81) -/

/-- The lane enters HELD (R81): balls left in the pit are lifted. -/
def enterHeld (x : Lane) (s : State) : State :=
  let s := enterState x .held s
  if (s.laneTransit x).pitHold = [] then s else startCycle x .liftOnly s

/-- A ball has joined lane `x`'s pit hold (R81, R88): a HELD lane begins a lift. -/
def ballJoined (x : Lane) (s : State) : State :=
  if (s.seq x).state = .held then startCycle x .liftOnly s else s

/-- Issue PARK and enter PARKING (R80, R100). -/
def startParking (x : Lane) (s : State) : State := enterState x .parking (issueOrder x .park s)

/-- The lane is at its rest point (R80). -/
def restPoint (x : Lane) (s : State) : State :=
  if (s.seq x).parkPending then startParking x s
  else if (s.seq x).holds = .empty then enterState x .ready s
  else enterHeld x s

/-- A hold reason is added (R79, R80): one already present has no effect. -/
def addHold (x : Lane) (r : HoldReason) (s : State) : State :=
  if (s.seq x).holds.has r then s
  else
    let s := s.modSeq x fun q => { q with holds := q.holds.put r true }
    if (s.seq x).state = .ready then enterHeld x s else s

/-- A hold reason is removed (R79, R80): one that is absent has no effect. -/
def removeHold (x : Lane) (r : HoldReason) (s : State) : State :=
  if (s.seq x).holds.has r then
    let s := s.modSeq x fun q => { q with holds := q.holds.put r false }
    if (s.seq x).state = .held ∧ (s.seq x).holds = .empty then enterState x .ready s else s
  else s

/-- Bring one hold reason into step with its condition. -/
def setHold (x : Lane) (r : HoldReason) (v : Bool) (s : State) : State :=
  if v then addHold x r s else removeHold x r s

end Sys2Proof.Machine
end

