-- ==== Sys2Proof/Machine/Billing.lean ====
section
/-! DEFINITION. Centre time, bands, charges, locking and warning (sections 9.1 to 9.5). -/

namespace Sys2Proof.Machine

/-! ### Centre time (R164) -/

/-- The second of the day that centre time stands at: it advances one second for each 1,000 ms of
the time base, and passes from 23:59:59 to 00:00:00. -/
def CentreTime.secondOfDay (c : CentreTime) (now : Nat) : Nat :=
  (c.second + (now - c.anchor) / 1000) % 86400

/-- The validity of centre time. -/
def validity (s : State) : Validity :=
  match s.account.centre with
  | none => .invalid
  | some c => if c.stale then .stale else .valid

/-- The minute of day, absent while centre time is INVALID. -/
def centreMinute (s : State) : Option Nat :=
  s.account.centre.map fun c => c.secondOfDay s.now / 60

/-- The second of the minute, 0 while centre time is INVALID (R185). -/
def centreSecond (s : State) : Nat :=
  match s.account.centre with
  | some c => c.secondOfDay s.now % 60
  | none => 0

/-- The centre minute with its validity. -/
def stampedMinute (s : State) : StampedMinute := ⟨centreMinute s, validity s⟩

/-! ### Bands (R166) -/

/-- The place in a table of the entry with the greatest start at or below `t`, starts rising. -/
def lastStartAtOrBelow (t : Nat) (bands : List Band) : Option Nat :=
  match (bands.takeWhile fun b => b.start ≤ t).length with
  | 0 => none
  | n + 1 => some n

/-- The index of the band in force (R166). -/
def bandIndex (s : State) : Nat :=
  match s.account.bandHold with
  | some i => i
  | none =>
    match centreMinute s with
    | none => 0
    | some t =>
      (lastStartAtOrBelow t s.account.rates.bands).getD (s.account.rates.bands.length - 1)

/-- The band in force (R166). A lane can only be open with a table loaded (R167), so the band of
an empty table prices nothing that is charged. -/
def bandInForce (s : State) : Band :=
  (s.account.rates.bands[bandIndex s]?).getD ⟨0, 0, 0, 0⟩

/-- Clamp a band index to a table (R166): an index beyond it takes its last entry, and with an
empty table the index stands. -/
def clampBand (bands : List Band) (i : Nat) : Nat :=
  if bands = [] then i else min i (bands.length - 1)

/-! ### Locking and warning (R172, R173) -/

/-- The limit of a meter (section 9.3). -/
def meterLimit : Nat := 599999940

/-- The limit of money (section 6 of the introduction). -/
def moneyLimit : Nat := 9999999

/-- The shown charge (R173). -/
def Account.shownCharge (a : Account) : Nat := a.meter / 60

/-- The account of lane `x` locks (R172). -/
def lock (x : Lane) (cause : LockCause) (s : State) : State :=
  offer (.lock x cause) (addHold x .credit (setAccountState x .locked s))

/-- The account of lane `x` unlocks (R172). -/
def unlock (x : Lane) (cause : UnlockCause) (s : State) : State :=
  offer (.unlock x cause) (removeHold x .credit (setAccountState x .opened s))

/-- The warn test (R173), which an open tab never meets. -/
def warnTest (x : Lane) (s : State) : State :=
  match (s.acct x).credit with
  | none => s
  | some c =>
    let remaining := c - (s.acct x).shownCharge
    if (s.acct x).warned then
      if (s.acct x).warn ≤ remaining then s.modAcct x fun a => { a with warned := false } else s
    else if 0 < (s.acct x).warn ∧ remaining < (s.acct x).warn then
      offer (.creditLow x remaining) (s.modAcct x fun a => { a with warned := true })
    else s

/-! ### Charging (R168 to R170) -/

/-- An open-tab meter raised by `n`, stopping at its limit with the saturated flag (R168, R169). -/
def Account.addOpenTab (a : Account) (n : Nat) : Account :=
  if a.meter + n > meterLimit then { a with meter := meterLimit, saturated := true }
  else { a with meter := a.meter + n }

/-- One minute is charged (R168). -/
def chargeMinute (x : Lane) (s : State) : State :=
  let h := (bandInForce s).hour
  let s := s.modAcct x fun a => { a with minutesBilled := bump a.minutesBilled }
  match (s.acct x).credit with
  | none => s.modAcct x fun a => a.addOpenTab h
  | some c =>
    if h = 0 then warnTest x s
    else
      let s := s.modAcct x fun a => { a with meter := min (a.meter + h) (c * 60) }
      warnTest x (if (s.acct x).meter = c * 60 then lock x .creditUsed s else s)

/-- The price of a charge in the band in force (R169). -/
def priceOf (kind : ChargeKind) (s : State) : Nat :=
  match kind with
  | .game => (bandInForce s).game
  | .bowler => (bandInForce s).bowler

/-- Whether the account can take a charge of `n` sixtieths (R169). -/
def Account.covers (a : Account) (n : Nat) : Bool :=
  match a.credit with
  | none => true
  | some c => n ≤ c * 60 - a.meter

/-- The Roster Unit is told of a charge (R140). -/
def reportCharge (k : Slot) (kind : ChargeKind) (s : State) : State :=
  s.modEntry k fun e =>
    match kind with
    | .game => { e with gameCharged := true }
    | .bowler => { e with chargedSession := true }

/-- Make a game or bowler charge that the account covers (R169). -/
def makeCharge (x : Lane) (k : Slot) (kind : ChargeKind) (s : State) : State :=
  let n := priceOf kind s * 60
  let s := s.modAcct x fun a =>
    match a.credit with
    | none => a.addOpenTab n
    | some _ => { a with meter := a.meter + n }
  let s := s.modAcct x fun a =>
    match kind with
    | .game => { a with gamesCharged := bump a.gamesCharged }
    | .bowler => { a with bowlersCharged := bump a.bowlersCharged }
  warnTest x (reportCharge k kind s)

/-- The method that acts on a charge point of a kind (R169). -/
def ChargeKind.method : ChargeKind → Method
  | .game => .perGame
  | .bowler => .perBowler

/-- A charge point of lane `x` (R169): a charge the credit does not cover becomes pending and locks
the account. -/
def chargePoint (x : Lane) (k : Slot) (kind : ChargeKind) (s : State) : State :=
  if (s.acct x).state = .opened ∧ (s.acct x).method = kind.method then
    if (s.acct x).covers (priceOf kind s * 60) then makeCharge x k kind s
    else lock x (.chargePending k kind) (s.modAcct x fun a => { a with pending := some ⟨k, kind⟩ })
  else s

/-- Try the pending charge of a LOCKED account again (R170); made, it unlocks the account with the
given cause. The warn test is the charge's own (R169), so CREDIT_LOW joins the notice queue before
UNLOCK, an order that R169 to R171 leave open (DESIGN CHOICE, log entry 47). -/
def retryPending (x : Lane) (cause : UnlockCause) (s : State) : State :=
  match (s.acct x).pending with
  | some p =>
    if (s.acct x).state = .locked ∧ (s.acct x).covers (priceOf p.kind s * 60) then
      unlock x cause <|
        (makeCharge x p.slot p.kind s).modAcct x fun a => { a with pending := none }
    else s
  | none => s

/-- The Roster Unit reports that slot `k` has left UP on lane `x` without a ball (R128, R170): a
pending charge of that slot is cancelled, and a LOCKED account unlocks. -/
def leftUp (x : Lane) (k : Slot) (s : State) : State :=
  match (s.acct x).pending with
  | some p =>
    if p.slot = k then
      let s := s.modAcct x fun a => { a with pending := none }
      if (s.acct x).state = .locked then unlock x .chargeCancelled s else s
    else s
  | none => s

end Sys2Proof.Machine
end

