-- ==== Sys2Proof/Machine/Play.lean ====
section
/-! DEFINITION. The order of play: lane queues, teams, charge points, withdrawals and frame ends
(sections 7.3 to 7.9). -/

namespace Sys2Proof.Machine

/-! ### Teams and questions (R129, R132) -/

/-- The other team. -/
def Team.other : Team → Team
  | .one => .two
  | .two => .one

/-- The handover list of a team. -/
def Roster.handover (r : Roster) : Team → List Slot
  | .one => r.handover1
  | .two => r.handover2

/-- Replace the handover list of a team. -/
def Roster.setHandover (r : Roster) (t : Team) (l : List Slot) : Roster :=
  match t with
  | .one => { r with handover1 := l }
  | .two => { r with handover2 := l }

/-- The lane of a team (R132). -/
def Roster.teamLane (r : Roster) : Team → Lane
  | .one => r.team1Lane
  | .two => r.team1Lane.other

/-- The team whose lane `x` is. -/
def Roster.laneTeam (r : Roster) (x : Lane) : Team := if r.team1Lane = x then .one else .two

/-- Whether a team is PLAYING (R132). -/
def Roster.playing (r : Roster) (t : Team) : Bool := r.queues.get (r.teamLane t) ≠ []

/-- Whether a team is in HANDOVER (R132). No team state is kept in OPEN mode. -/
def Roster.inHandover (r : Roster) (t : Team) : Bool :=
  r.session.mode = .cross ∧ r.playing t = false ∧ r.handover t ≠ []

/-- The UP bowler of lane `x` (R129). -/
def upBowler (x : Lane) (s : State) : Option Slot := (s.roster.queues.get x).head?

/-- Whether a frame of a game has ended, given its number and its balls (R147, R148). -/
def frameEnded (n : Nat) (balls : List BallEntry) : Bool :=
  match balls with
  | [] => false
  | [b] =>
    n < 10 && (b.marks.strike || (!b.marks.foul && b.pinfall == b.before))
  | [b, c] => n < 10 || !(b.marks.strike || c.marks.spare)
  | _ => true

/-- Whether frame record `n` of a game has ended (R143). A frame that was scored at its end has a
score from then on (R149), so that a correction, which may leave pins standing where none stood,
does not open it again; a strike and a spare keep their marks (R156). -/
def FrameRecord.ended (f : FrameRecord) (n : Nat) : Bool :=
  f.score.isSome || frameEnded n f.balls

/-- The number of the current frame of a game (R143). -/
def currentFrame (frames : List FrameRecord) : Nat :=
  match frames.getLast? with
  | none => 1
  | some f => if f.ended frames.length then frames.length + 1 else frames.length

/-- Whether the current frame of a game holds a ball (R129, R143). -/
def currentFrameHasBall (frames : List FrameRecord) : Bool :=
  match frames.getLast? with
  | none => false
  | some f => !f.ended frames.length && f.balls != []

/-- Whether sequencer `x` holds a scored ball launched for slot `k` (R129). -/
def holdsBallFor (x : Lane) (k : Slot) (s : State) : Bool :=
  (s.seq x).scored.isSome &&
    match (s.laneTransit x).copy with
    | some c => c.slot = some k
    | none => false

/-- Whether the UP bowler `k` of lane `x` has a ball in the current frame (R129). -/
def ballInFrame (x : Lane) (k : Slot) (s : State) : Bool :=
  (match s.bowler k with
    | some b => currentFrameHasBall b.current
    | none => false) || holdsBallFor x k s

/-- Whether the current game of slot `k` holds no ball. -/
def gameEmpty (k : Slot) (s : State) : Bool :=
  match s.bowler k with
  | some b => b.current.isEmpty
  | none => true

/-- Whether slot `k` has a game in progress (R129). -/
def gameInProgress (k : Slot) (s : State) : Bool :=
  match s.entry k with
  | none => false
  | some e =>
    e.status ≠ .done && e.status ≠ .withdrawn &&
      (!gameEmpty k s || holdsBallFor .A k s || holdsBallFor .B k s)

/-! ### Scores emptied at the Roster Unit's request (R143) -/

/-- Discard the current game of slot `k`: it becomes empty, and its eleven items are marked. -/
def discardGame (k : Slot) (s : State) : State :=
  match s.bowler k with
  | some b => markBoth (gameItems k 0) (s.setBowler k (some { b with current := [], bonuses := [] }))
  | none => s

/-! ### Becoming UP and leaving UP (R128, R139) -/

/-- Replace the queue of lane `x`. -/
def setQueue (x : Lane) (l : List Slot) (s : State) : State :=
  s.modRoster fun r => { r with queues := r.queues.set x l }

/-- Set the status of an entry. -/
def setStatus (k : Slot) (st : BowlerStatus) (s : State) : State :=
  s.modEntry k fun e => { e with status := st }

/-- Examine slot `k`, UP on lane `x`, for charge points (R139). -/
def examineCharge (x : Lane) (k : Slot) (s : State) : State :=
  match s.entry k with
  | none => s
  | some e =>
    if gameEmpty k s ∧ e.gameCharged = false then
      let s := chargePoint x k .game s
      if e.chargedSession = false then chargePoint x k .bowler s else s
    else s

/-- The head of lane `x`'s queue, if there is one, becomes UP (R128) and is examined. -/
def headBecomesUp (x : Lane) (s : State) : State :=
  match upBowler x s with
  | some k => examineCharge x k (setStatus k .up s)
  | none => s

/-! ### Hold reasons of the Roster Unit (R138) and the swap (R132, R133) -/

/-- NO_BOWLER and HANDOVER of lane `x` by their conditions. -/
def rosterHolds (x : Lane) (r : Roster) : Bool × Bool :=
  let waits := r.inHandover (r.laneTeam x)
  (!r.practice.get x && (r.queues.get x).isEmpty && !waits, waits)

/-- Bring NO_BOWLER and HANDOVER of lane `x` into step with their conditions (R138): a reason that
appears is added before the other is removed. -/
def syncHolds (x : Lane) (s : State) : State :=
  let (noBowler, handover) := rosterHolds x s.roster
  if noBowler then setHold x .handover handover (setHold x .noBowler true s)
  else setHold x .noBowler false (setHold x .handover handover s)

/-- The hold reasons of both lanes, lane A's first (log entry 25). -/
def syncBoth (s : State) : State := syncHolds .B (syncHolds .A s)

/-- A slot crosses to a lane (R133): WAITING, with its new lane. -/
def crossTo (x : Lane) (s : State) (k : Slot) : State :=
  s.modEntry k fun e => { e with status := .waiting, lane := x }

/-- The swap of R133: each handover list becomes the queue of the lane opposite its team's. The head
of lane A becomes UP before that of lane B, where no rule orders the lanes (DESIGN CHOICE, log entry
25). -/
def swapTeams (s : State) : State :=
  let r := s.roster
  let toA := if r.team1Lane = .B then r.handover1 else r.handover2
  let toB := if r.team1Lane = .B then r.handover2 else r.handover1
  let s := s.modRoster fun r =>
    { r with queues := ⟨toA, toB⟩, handover1 := [], handover2 := [], team1Lane := r.team1Lane.other }
  let s := toB.foldl (crossTo .B) (toA.foldl (crossTo .A) s)
  headBecomesUp .B (headBecomesUp .A s)

/-- Whether the swap test passes (R133): a team is in HANDOVER and none is PLAYING. -/
def swapPasses (r : Roster) : Bool :=
  (r.inHandover .one || r.inHandover .two) && !r.playing .one && !r.playing .two

/-- HANDOVER of lane `x` at a change of its team's state (R132). -/
def syncHandover (x : Lane) (s : State) : State :=
  setHold x .handover (rosterHolds x s.roster).2 s

/-- Work out the teams and the hold reasons again after a change of a queue or list (R132, R138):
HANDOVER joins or leaves with the team's state, the swap test is made, and then the hold reasons
are worked out. -/
def settleRoster (s : State) : State :=
  let s := syncHandover .B (syncHandover .A s)
  syncBoth (if swapPasses s.roster then swapTeams s else s)

/-! ### Leaving (R136, R137) -/

/-- Take slot `k` out of every queue and list. -/
def removeSlot (k : Slot) (s : State) : State :=
  s.modRoster fun r =>
    { r with
      queues := ⟨r.queues.a.filter (· ≠ k), r.queues.b.filter (· ≠ k)⟩
      handover1 := r.handover1.filter (· ≠ k)
      handover2 := r.handover2.filter (· ≠ k) }

/-- Slot `k`, whose entry is `e`, leaves the order of play at once (R136). -/
def withdrawNow (k : Slot) (e : RosterEntry) (s : State) : State :=
  let s := removeSlot k s
  let s := s.modEntry k fun e => { e with status := .withdrawn, pendingWithdraw := false }
  let s := (discardGame k s).modEntry k fun e => { e with gameCharged := false }
  let s := if e.status = .up then headBecomesUp e.lane (leftUp e.lane k s) else s
  settleRoster s

/-- A pending withdrawal of lane `x`'s UP bowler, who may have come to have no ball in the current
frame (R137). -/
def checkPendingWithdraw (x : Lane) (s : State) : State :=
  match upBowler x s with
  | none => s
  | some k =>
    match s.entry k with
    | none => s
    | some e =>
      if e.pendingWithdraw ∧ ballInFrame x k s = false then withdrawNow k e s else s

/-! ### Frame ends and game ends (R130, R131) -/

/-- A game end for slot `k` (R130). -/
def gameEnds (k : Slot) (s : State) : State :=
  s.modEntry k fun e => { e with games := satAdd 255 e.games 1, gameCharged := false }

/-- Where the UP bowler goes at a frame end: the table of R131, step 2. -/
inductive FrameDestination where
  | withdrawn
  | done
  | queue
  | handover
deriving DecidableEq, Repr

/-- The first destination of R131's table that applies. -/
def frameDestination (r : Session) (e : RosterEntry) : FrameDestination :=
  if e.pendingWithdraw then .withdrawn
  else if 0 < r.limit ∧ r.limit ≤ e.games then .done
  else match r.mode with
    | .opened => .queue
    | .cross => .handover

/-- A frame end for slot `k`, the UP bowler of lane `x` (R131). A ball result is applied whatever
the slot's status (R144) and hands on the frame end that it makes (R131 with R151, step 7), but R131
speaks of the UP bowler alone: for a slot that is not the head of the lane's queue nothing is done
(DESIGN CHOICE, log entry 55). -/
def frameEnds (x : Lane) (k : Slot) (gameEnd : Bool) (s : State) : State :=
  match s.roster.queues.get x, s.entry k with
  | h :: rest, some e =>
    if h = k then
      let s := (setQueue x rest s).modEntry k fun e => { e with pendingWithdraw := false }
      let s :=
        match frameDestination s.roster.session e with
        | .withdrawn =>
          let s := setStatus k .withdrawn s
          if gameEnd then s
          else (discardGame k s).modEntry k fun e => { e with gameCharged := false }
        | .done => setStatus k .done s
        | .queue => setStatus k .waiting (setQueue x (rest ++ [k]) s)
        | .handover =>
          let t := e.team.getD (s.roster.laneTeam x)
          setStatus k .handover
            (s.modRoster fun r => r.setHandover t (r.handover t ++ [k]))
      settleRoster (headBecomesUp x s)
    else s
  | _, _ => s

/-! ### Opening and forced close (R141) -/

/-- The opening of lane `x` (R138, R141). -/
def rosterOpening (x : Lane) (practice : Bool) (s : State) : State :=
  let s := s.modRoster fun r => { r with practice := r.practice.set x practice }
  let s := syncHolds x s
  match upBowler x s with
  | some k => examineCharge x k s
  | none => s

/-- The slots that the close check of lane `x` covers (R141). -/
def closeCover (x : Lane) (s : State) : List Slot :=
  match s.roster.session.mode with
  | .opened => s.roster.queues.get x
  | .cross => (List.finRange 12).filter fun k => (s.entry k).isSome

/-- Abandon the game of slot `k` (R141). -/
def abandonGame (s : State) (k : Slot) : State :=
  (discardGame k s).modEntry k fun e => { e with gameCharged := false }

/-- Abandon every game in progress within the cover of lane `x`'s close (R141), in queue order in
OPEN mode and in slot order in CROSS mode, and then look at the pending withdrawals of lane A and of
lane B: R141 gives neither order (DESIGN CHOICE, log entry 38). -/
def abandonGames (x : Lane) (s : State) : State :=
  let s := ((closeCover x s).filter fun k => gameInProgress k s).foldl abandonGame s
  checkPendingWithdraw .B (checkPendingWithdraw .A s)

end Sys2Proof.Machine
end

