-- ==== Sys2Proof/Machine/Flags.lean ====
section
/-! DEFINITION. What follows from the state by fixed rules: the marks, values and scores of balls
(sections 8.2 and 8.3), and the values of the output lines (sections 4.5 and 4.6). -/

namespace Sys2Proof.Machine

/-! ### A ball on its rack (R145, R146) -/

/-- Whether the ball left no pin of its rack standing. -/
def BallEntry.cleared (b : BallEntry) : Bool := b.pinfall == b.before

/-- Whether the ball after `b` in the same frame is rack-first (R145). -/
def BallEntry.newRackNext (b : BallEntry) : Bool :=
  b.marks.strike || b.marks.spare || (!b.marks.foul && b.cleared)

/-- Whether ball `i` of a frame, counted from 0, is rack-first (R145). It is read from the balls as
corrections have left them (DESIGN CHOICE, log entry 39). -/
def rackFirst (balls : List BallEntry) (i : Nat) : Bool :=
  match i with
  | 0 => true
  | j + 1 =>
    match balls[j]? with
    | some b => b.newRackNext
    | none => true

/-- Whether a rack-first ball is a strike (R145). -/
def isStrike (f : Format) (first foul : Bool) (before after : PinSet) : Bool :=
  first && !foul && before.count == 10 &&
    match f with
    | .tenPin => after.count == 0
    | .nineTap => 9 ≤ before.count - after.count

/-- Whether the next ball of `balls` is a spare (R145): a second ball that leaves nothing of a rack
whose rack-first ball faced ten pins. -/
def isSpare (balls : List BallEntry) (foul : Bool) (after : PinSet) : Bool :=
  !rackFirst balls balls.length && !foul && after.count == 0 &&
    match balls.getLast? with
    | some b => b.before == 10
    | none => false

/-- The neighbours of pin 1 to 10 (R146). -/
def neighbours : List (List Nat) :=
  [[2, 3], [1, 3, 4, 5], [1, 2, 5, 6], [2, 5, 7, 8], [2, 3, 4, 6, 8, 9], [3, 5, 9, 10], [4, 8],
    [4, 5, 7, 9], [5, 6, 8, 10], [6, 9]]

/-- The pin set of a list of pins. -/
def pinSet (pins : List Nat) : PinSet := pins.foldl (fun s n => s ||| (1#10 <<< (n - 1))) 0#10

/-- The pins of `standing` that are in `group` or are neighbours of a pin of it. -/
def growGroup (standing group : PinSet) : PinSet :=
  ((List.range 10).foldl
    (fun g i => if group.getLsbD i then g ||| pinSet (neighbours.getD i []) else g) group) &&& standing

/-- The set with its lowest pin alone. -/
def lowestPin (s : PinSet) : PinSet :=
  match (List.range 10).find? fun i => s.getLsbD i with
  | some i => 1#10 <<< i
  | none => 0#10

/-- The group of the lowest pin of a set: ten steps reach every pin a chain can reach. -/
def firstGroup (standing : PinSet) : PinSet :=
  (List.range 10).foldl (fun g _ => growGroup standing g) (lowestPin standing)

/-- The split test of R146. -/
def isSplit (foul : Bool) (before after : PinSet) : Bool :=
  !foul && before.count == 10 && !after.has 1 && 2 ≤ after.count && firstGroup after != after

/-- A ball result (R92). -/
structure BallResult where
  slot : Slot
  lane : Lane
  before : PinSet
  after : PinSet
  foul : Bool
  inferred : Bool
  doubt : Bool
  speed : Option Nat
deriving DecidableEq, Repr

/-- The ball entry of a result that is the next ball after `balls` in its frame (R144 to R146). -/
def ballEntry (f : Format) (balls : List BallEntry) (r : BallResult) : BallEntry :=
  let strike := isStrike f (rackFirst balls balls.length) r.foul r.before r.after
  let pinfall := r.before.count - r.after.count
  { before := r.before.count
    pinfall := pinfall
    value := if r.foul then 0 else if strike then 10 else pinfall
    marks :=
      { strike := strike
        spare := isSpare balls r.foul r.after
        foul := r.foul
        split := isSplit r.foul r.before r.after
        gutter := !r.foul && pinfall == 0 }
    speed := r.speed
    inferred := r.inferred
    doubt := r.doubt }

/-! ### Frame scores (R149, R150) -/

/-- The bonus balls a frame of 1..9 needs when it ends: two for a strike, one for a spare. -/
def bonusNeeded (n : Nat) (balls : List BallEntry) : Nat :=
  if 10 ≤ n then 0
  else match balls with
    | b :: rest =>
      if b.marks.strike then 2
      else match rest with
        | c :: _ => if c.marks.spare then 1 else 0
        | [] => 0
    | [] => 0

/-- The score of frame `n` from the values of its own balls and of its bonus balls (R149). -/
def frameScore (frames : List FrameRecord) (n : Nat) : Nat :=
  match frames[n - 1]? with
  | none => 0
  | some f =>
    let need := bonusNeeded n f.balls
    let later := ((frames.drop n).flatMap (·.balls)).take need
    if need = 0 then (f.balls.map (·.value)).sum else 10 + (later.map (·.value)).sum

/-- Set the score of frame `n`. -/
def setScore (frames : List FrameRecord) (n : Nat) : List FrameRecord :=
  match frames[n - 1]? with
  | some f => frames.set (n - 1) { f with score := some (frameScore frames n) }
  | none => frames

/-- The running totals (R150), given the running total before the first frame. -/
def retotal : Option Nat → List FrameRecord → List FrameRecord
  | _, [] => []
  | before, f :: rest =>
    let t :=
      match before, f.score with
      | some p, some x => some (p + x)
      | _, _ => none
    { f with total := t } :: retotal t rest

/-- The frames with a ball recorded as the next ball of the current frame (R144). -/
def addBall (frames : List FrameRecord) (b : BallEntry) : List FrameRecord :=
  if currentFrame frames = frames.length then
    frames.modify (frames.length - 1) fun f => { f with balls := f.balls ++ [b] }
  else frames ++ [⟨[b], none, none⟩]

/-- The balls of the current frame so far (R143). -/
def currentBalls (frames : List FrameRecord) : List BallEntry :=
  if currentFrame frames = frames.length then
    match frames.getLast? with
    | some f => f.balls
    | none => []
  else []

/-- A bowler's current game with a ball recorded: the bonus waits lowered, the scores that this
completes set, the frame that it ends scored or put in the pending list, and the running totals
(R147 to R150). -/
def recordBall (g : Bowler) (b : BallEntry) : Bowler :=
  let frames := addBall g.current b
  let n := frames.length
  let lowered := g.bonuses.map fun w => { w with needed := w.needed - 1 }
  let frames := ((lowered.filter fun w => w.needed = 0).map (·.frame)).foldl setScore frames
  let kept := lowered.filter fun w => w.needed ≠ 0
  let balls := ((frames[n - 1]?).map (·.balls)).getD []
  let need := bonusNeeded n balls
  if frameEnded n balls then
    if need = 0 then { g with current := retotal (some 0) (setScore frames n), bonuses := kept }
    else { g with current := retotal (some 0) frames, bonuses := kept ++ [⟨n, need⟩] }
  else { g with current := retotal (some 0) frames, bonuses := kept }

/-- The frames, counted from 1, whose score or running total differs between two versions of a
game. -/
def rescored (old new : List FrameRecord) : List Nat :=
  ((List.range new.length).filter fun i =>
    match old[i]?, new[i]? with
    | some f, some g => f.score ≠ g.score ∨ f.total ≠ g.total
    | none, some g => g.score ≠ none ∨ g.total ≠ none
    | _, none => False).map (· + 1)

/-! ### The output lines (R71 to R76) -/

/-- The lanes' motor demand of the Transit Monitor (R121). -/
def motorDemand (s : State) : Bool :=
  (s.transit.idleTimer ≠ .stopped || (s.laneTransit .A).pitHold ≠ [] ||
      (s.laneTransit .B).pitHold ≠ [] || s.transit.track ≠ []) &&
    ((s.acct .A).state ≠ .closed || (s.acct .B).state ≠ .closed)

/-- PAIR_POWER (R71). -/
def pairPower (s : State) : Bool :=
  if s.line.estop then false
  else match s.line.powerOverride with
    | some v => v
    | none =>
      (s.acct .A).state ≠ .closed || (s.acct .B).state ≠ .closed ||
        (s.seq .A).state ≠ .parked || (s.seq .B).state ≠ .parked

/-- RETURN_MOTOR (R72). -/
def returnMotor (s : State) : Bool :=
  if s.line.estop then false
  else if s.transit.fault ≠ none then false
  else match s.line.motorOverride with
    | some v => v
    | none => motorDemand s && pairPower s

/-- LAMP_x (R74). -/
def lamp (x : Lane) (s : State) : LampValue :=
  if s.line.estop then .fast
  else if (s.line.foulLamp.get x).isSome then .steady
  else if (s.seq x).state = .fault then .slow
  else if (s.acct x).state = .locked then .slow
  else .off

/-- DESK_CALL (R75). -/
def deskCall (s : State) : LampValue :=
  if s.link.call.a || s.link.call.b then .steady
  else if (s.seq .A).state = .fault ∨ (s.seq .B).state = .fault ∨ s.transit.fault ≠ none then .slow
  else .off

/-- The five outputs worked out from their drivers (R70). -/
def arbitrate (s : State) : Outputs :=
  { pairPower := pairPower s
    returnMotor := returnMotor s
    lamp := ⟨lamp .A s, lamp .B s⟩
    deskCall := deskCall s }

/-- The blink phase (R76). -/
def blinkPhase (s : State) : Nat := s.now % 1000

/-- Whether a line with a value is on at a blink phase (R76). -/
def LampValue.lit (v : LampValue) (phase : Nat) : Bool :=
  match v with
  | .off => false
  | .steady => true
  | .slow => phase < 500
  | .fast => phase % 250 < 125

/-- The end of every event: waiting answers and console items are posted where their slots are
free (R49, R53), and the output lines are worked out again (R70). -/
def finish (s : State) : State :=
  let s := serviceConsole .B (serviceConsole .A s)
  s.modLineUnit fun u => { u with outputs := arbitrate s }

end Sys2Proof.Machine
end

