-- ==== Sys2Proof/Machine/Score.lean ====
section
/-! DEFINITION. The Score Engine: ball results, game ends, dispositions and corrections (chapter
8). -/

namespace Sys2Proof.Machine

/-- The rack disposition (R154). -/
inductive Disposition where
  | sameRack (set : PinSet)
  | newRack
deriving DecidableEq, Repr

/-- The series sum raised by a game total, within its limit (R151). -/
def raiseSeries (sum total : Nat) : Nat :=
  if sum + total ≤ 4294967295 then sum + total
  else (Config.seriesBeyondLimit (sum + total)).toNat

/-- The series sum with a stored game's old total changed for its new one: it falls by the old one
and rises by the new (R157, step 4). A sum of less than the old total, which only an earlier sum past
R151's limit can leave, would fall below 0; no rule gives the sum after that, and it is a free value
(DESIGN CHOICE, log entry 6). -/
def changeSeries (sum old total : Nat) : Nat :=
  if old ≤ sum then raiseSeries (sum - old) total
  else (Config.seriesBelowZero sum old total).toNat

/-- The disposition of a ball (R154). -/
def disposition (r : BallResult) (b : BallEntry) (ended : Bool) : Disposition :=
  if ended || b.newRackNext then .newRack
  else
    let set := if r.foul then r.before else r.after
    if set = PinSet.full then .newRack else .sameRack set

/-- The running total of frame `n`. -/
def totalOf (frames : List FrameRecord) (n : Nat) : Option Nat :=
  (frames[n - 1]?).bind (·.total)

/-- The end of a game (R151, steps 1 to 6): stored, the series raised, the consoles marked and
GAME_END offered. -/
def endGame (k : Slot) (g : Bowler) (s : State) : State :=
  let total := (totalOf g.current 10).getD 0
  let g' : Bowler :=
    { current := [], bonuses := [], stored := ⟨g.current, total⟩ :: g.stored.take 2,
      series := raiseSeries g.series total }
  offer (.gameEnd k total g'.reportedSeries) (markBoth (slotItems k) (s.setBowler k (some g')))

/-- The items a ball result marks when it does not end the game (R153): the ball's frame, and each
frame whose score or running total it set. -/
def ballMarks (k : Slot) (n : Nat) (old new : List FrameRecord) : List Item :=
  (((List.range 10).map (· + 1)).filter fun i => i = n || i ∈ rescored old new).map
    fun i => ⟨k, 0, .frame i⟩

/-- A ball result (R144): recorded, settled, marked and reported; the Roster Unit is told of the
game end and the frame end; the disposition is returned. -/
def ballResult (r : BallResult) (s : State) : State × Disposition :=
  match s.bowler r.slot with
  | none => (s, .newRack)
  | some g =>
    let b := ballEntry s.roster.session.format (currentBalls g.current) r
    let g' := recordBall g b
    let n := g'.current.length
    let rec' := (g'.current[n - 1]?).getD ⟨[], none, none⟩
    let ended := frameEnded n rec'.balls
    let gameOver := ended && n == 10
    let s := s.setBowler r.slot (some g')
    let s := if gameOver then s else markBoth (ballMarks r.slot n g.current g'.current) s
    let s := offer (.ball r.lane r.slot n rec'.balls.length b rec'.score rec'.total) s
    let s := if gameOver then gameEnds r.slot (endGame r.slot g' s) else s
    let s := if ended then frameEnds r.lane r.slot gameOver s else s
    (s, disposition r b ended)

/-! ### Corrections (R155 to R158) -/

/-- A correction as it is asked for. -/
structure Correction where
  slot : Slot
  game : Fin 4
  frame : Nat
  ball : Nat
  pinfall : Nat
deriving DecidableEq, Repr

/-- The frames that a game index addresses, if there is such a game (section 8.1). -/
def Bowler.game (g : Bowler) (i : Fin 4) : Option (List FrameRecord) :=
  if i.val = 0 then some g.current else (g.stored[i.val - 1]?).map (·.frames)

/-- The value a corrected ball would have (R157, R145): a nine on a full rack in NINE_TAP would be a
NINE_TAP strike. -/
def correctedValue (f : Format) (first : Bool) (b : BallEntry) (pins : Nat) : Nat :=
  if b.marks.foul then 0
  else if f = .nineTap ∧ first ∧ b.before = 10 ∧ pins = 9 then 10
  else pins

/-- The class tests of R156 on ball `i` of a frame, counted from 0. -/
def classTest (f : Format) (balls : List BallEntry) (i : Nat) (b : BallEntry) (pins : Nat) :
    Status :=
  let first := rackFirst balls i
  let next := if first && !rackFirst balls (i + 1) then balls[i + 1]? else none
  let spareNext := match next with
    | some c => c.marks.spare
    | none => false
  let partner := if first then next else balls[i - 1]?
  let other := match partner with
    | some c => c.value
    | none => 0
  if b.marks.strike || b.marks.spare then .classChange
  else if spareNext then
    if b.marks.foul || (match f with | .tenPin => pins ≤ 9 | .nineTap => pins ≤ 8) then .done
    else .classChange
  else if !b.marks.foul && (match next with | some c => b.before - pins < c.pinfall | none => false)
    then .range
  else if 10 ≤ correctedValue f first b pins + other then .classChange
  else if !b.marks.foul && !b.cleared && pins = b.before then .classChange
  else .done

/-- The balls of a frame with ball `i` corrected (R157, steps 1 and 2). -/
def correctBalls (balls : List BallEntry) (i : Nat) (pins : Nat) : List BallEntry :=
  match balls[i]? with
  | none => balls
  | some b =>
    let b' : BallEntry :=
      { b with
        pinfall := pins
        value := if b.marks.foul then 0 else pins
        marks := { b.marks with gutter := !b.marks.foul && pins == 0, split := false } }
    let balls' := balls.set i b'
    if rackFirst balls i && !b.marks.foul && !rackFirst balls (i + 1) then
      match balls[i + 1]? with
      | none => balls'
      | some c =>
        let left := b.before - pins
        balls'.set (i + 1)
          (if c.marks.spare then { c with before := left, pinfall := left, value := left }
            else { c with before := left })
    else balls'

/-- Frame scores and running totals worked out again; a score that is absent stays absent (R157,
step 3). -/
def rescore (frames : List FrameRecord) : List FrameRecord :=
  retotal (some 0) <|
    ((List.range frames.length).map (· + 1)).foldl
      (fun fs n =>
        match (fs[n - 1]?).bind (·.score) with
        | some _ => setScore fs n
        | none => fs) frames

/-- The running total of the last frame that has one. -/
def lastTotal (frames : List FrameRecord) : Option Nat :=
  (frames.filterMap (·.total)).getLast?

/-- The items an accepted correction marks (R158). Of the TOTALs, that of the game itself comes
first and the others follow by rising game index, an order that R153 leaves open (DESIGN CHOICE,
log entry 46). -/
def correctionMarks (c : Correction) (old new : List FrameRecord) (totalChanged : Bool) :
    List Item :=
  (((List.range 10).map (· + 1)).filter fun i => i = c.frame || i ∈ rescored old new).map
      (fun i => ⟨c.slot, c.game, .frame i⟩) ++
    if totalChanged then
      ⟨c.slot, c.game, .total⟩ ::
        ((List.finRange 4).filter (· ≠ c.game)).map fun g => ⟨c.slot, g, .total⟩
    else []

/-- Carry out an accepted correction (R157, R158). -/
def applyCorrection (source : CorrectionSource) (c : Correction) (g : Bowler)
    (frames : List FrameRecord) (old : Nat) (s : State) : State :=
  let new := rescore <|
    frames.modify (c.frame - 1) fun f => { f with balls := correctBalls f.balls (c.ball - 1) c.pinfall }
  let g' : Bowler :=
    if c.game.val = 0 then { g with current := new }
    else
      match g.stored[c.game.val - 1]? with
      | none => g
      | some stored =>
        let total := (totalOf new 10).getD 0
        { g with
          stored := g.stored.set (c.game.val - 1) ⟨new, total⟩
          series := changeSeries g.series stored.total total }
  let total :=
    if c.game.val = 0 then lastTotal new else (g'.stored[c.game.val - 1]?).map (·.total)
  let totalChanged :=
    c.game.val ≠ 0 && total ≠ (g.stored[c.game.val - 1]?).map (·.total)
  let s := s.setBowler c.slot (some g')
  let s := offer
    (.correction source c.slot c.game.val c.frame c.ball old c.pinfall total g'.reportedSeries) s
  markBoth (correctionMarks c frames new totalChanged) s

/-- A correction (R155): the checks in their order, and then the change. -/
def correct (source : CorrectionSource) (c : Correction) (s : State) : State × Status :=
  if source ≠ .desk ∧ s.score.certified then (s, .locked)
  else if c.frame = 0 ∨ 10 < c.frame ∨ c.ball = 0 ∨ 3 < c.ball ∨ 10 < c.pinfall then (s, .range)
  else
    match s.bowler c.slot with
    | none => (s, .range)
    | some g =>
      if c.game.val = 0 ∧ currentFrameHasBall g.current ∧ c.frame = currentFrame g.current then
        (s, .state)
      else
        match g.game c.game with
        | none => (s, .range)
        | some frames =>
          match (frames[c.frame - 1]?).bind fun f => (f.balls[c.ball - 1]?).map fun b => (f, b) with
          | none => (s, .range)
          | some (f, b) =>
            if b.before < c.pinfall then (s, .range)
            else
              match classTest s.roster.session.format f.balls (c.ball - 1) b c.pinfall with
              | .done => (applyCorrection source c g frames b.pinfall s, .done)
              | st => (s, st)

end Sys2Proof.Machine
end

