-- ==== Sys2Proof/Machine/Sequencer.lean ====
section
/-! DEFINITION. The Pinsetter Sequencers (chapter 5): balls, scans, scoring, faults, recovery,
opening and parking. -/

namespace Sys2Proof.Machine

/-! ### The scored ball (R88, R89, R94, R108) -/

/-- The scored ball `id` of lane `x` becomes dead in the transit records, wherever its record
stands, and the copy is released (R108). -/
def killRecord (id : Nat) (b : BallRecord) : BallRecord :=
  if b.id = id then { b with scored := false, slot := none } else b

/-- Drop the scored ball at a fault entry or a park (R94, R100): it is dead, and a pending
withdrawal may be carried out (R137). -/
def dropScored (x : Lane) (s : State) : State :=
  let id := (s.seq x).scored
  let s := s.modSeq x fun q => { q with scored := none, retry := false }
  let s := s.modLane x fun l =>
    { l with
      inFlight := match id with | some i => l.inFlight.map (killRecord i) | none => l.inFlight
      pitHold := match id with | some i => l.pitHold.map (killRecord i) | none => l.pitHold
      copy := none }
  checkPendingWithdraw x s

/-- The scored ball of lane `x` is lost at the flight timeout (R89): void, and the lane is at its
rest point. What a withdrawal that it carries out offers (R137) comes after the BALL_LOST (DESIGN
CHOICE, log entry 52). The withdrawal itself comes before the rest point, an order that R89 and R137
leave open (DESIGN CHOICE, log entry 57). -/
def scoredLost (x : Lane) (s : State) : State :=
  if (s.seq x).state = .ballOut then
    let s := s.modSeq x fun q => { q with scored := none, retry := false }
    restPoint x (checkPendingWithdraw x s)
  else s

/-- The lane enters SETTLE, and the settle timer starts (R87, R88). -/
def enterSettle (x : Lane) (s : State) : State :=
  (enterState x .settle s).modSeq x fun q =>
    { q with settleTimer := some (s.now + s.command.timing.settle) }

/-- The scored ball has reached the pit (R88). -/
def scoredInPit (x : Lane) (s : State) : State :=
  if (s.seq x).state = .ballOut then enterSettle x s else s

/-! ### Faults (R94, R95) -/

/-- What must be done again after a fault entry: the first case of R94, step 2. -/
def resumeAtFault (q : Sequencer) : Option PinOrder :=
  if q.startPending then some .fullSet
  else if q.state = .recover then q.resume
  else if q.state = .parked ∨ q.state = .parking ∨ q.parkPending then some .park
  else if q.state = .starting then some .fullSet
  else match q.order, q.place with
    | some o, _ => some o.order
    | none, some p => some p.order
    | none, none => none

/-- The lane enters FAULT (R94). A withdrawal that the drop of the scored ball carries out (R137)
comes before the notice, so that the LOCK, UNLOCK or CREDIT_LOW of its bowlers joins the notice queue
before FAULT, an order that R33 leaves open (DESIGN CHOICE, log entry 52). -/
def enterFault (x : Lane) (code : FaultCode) (station : Option Byte) (s : State) : State :=
  let q := s.seq x
  let s := s.modSeq x fun q =>
    { q with
      fault := some ⟨code, station⟩
      resume := resumeAtFault q
      startPending := false
      settleTimer := none }
  let s := enterState x .fault s
  let s := withdrawPlace x (withdrawOrder x s)
  let s := if q.state = .ballOut ∨ q.state = .settle ∨ q.state = .scan then dropScored x s else s
  offer (.fault x code station) s

/-- The lane enters PARKED, parked: park pending, the resume record and the clear step are done
with (R95, R99, R101). -/
def enterParked (x : Lane) (s : State) : State :=
  (enterState x .parked s).modSeq x fun q =>
    { q with parkPending := false, resume := none, clearStep := false }

/-- A fault that reaches the sequencer (R95). A LOST in RECOVER with PARK as the resume order withdraws
the place request of an earlier resume order, where one still waits, as the lane goes to PARKED: R84
names a withdrawal at a fault entry and at a park from LIFT_WAIT, and R95 is silent (DESIGN CHOICE,
log entry 56). -/
def seqFault (x : Lane) (code : FaultCode) (station : Option Byte) (s : State) : State :=
  match (s.seq x).state with
  | .fault =>
    if code = .estop then
      let s := s.modSeq x fun q => { q with fault := some ⟨code, station⟩ }
      offer (.fault x code station) (enterState x .fault s)
    else s
  | .parked => if code = .estop then enterFault x code station s else s
  | .parking =>
    if code = .link then enterParked x (withdrawOrder x s) else enterFault x code station s
  | .recover =>
    if code = .link ∧ (s.seq x).resume = some .park then
      enterParked x (withdrawPlace x (withdrawOrder x s))
    else enterFault x code station s
  | _ => enterFault x code station s

/-! ### Recovery and opening (R85, R99) -/

/-- The standing causes of R99 that put a lane in FAULT, in their order; `clear` is whether the
clear step is set. -/
def standingCause (x : Lane) (clear : Bool) (s : State) : Option (FaultCode × Option Byte) :=
  if s.line.estop then some (.estop, none)
  else if (s.station (.pin x)).state = .lost then some (.link, none)
  else if (s.seq x).pitStuck then some (.trigger, none)
  else if (s.seq x).condition ≠ 0 ∧ clear = false then some (.station, some (s.seq x).condition)
  else none

/-- Issue the resume order of RECOVER, or SCAN when the record has none (R99). -/
def issueResume (x : Lane) (s : State) : State :=
  let o := (s.seq x).resume.getD .scan
  if o.isLift then requestPlaces x o s else issueOrder x o s

/-- The lane enters RECOVER (R99). -/
def enterRecover (x : Lane) (s : State) : State :=
  let s := enterState x .recover s
  if s.line.estop = false ∧ (s.seq x).resume = some .park ∧ (s.station (.pin x)).state ≠ .ready then
    enterParked x s
  else
    match standingCause x (s.seq x).clearStep s with
    | some (code, station) => enterFault x code station s
    | none => if (s.seq x).clearStep then issueOrder x .clear s else issueResume x s

/-- The lane starts (R85). -/
def startLane (x : Lane) (s : State) : State :=
  let s := enterState x .starting (s.modSeq x fun q => { q with startPending := false })
  match standingCause x false s with
  | some (code, station) => enterFault x code station s
  | none => requestPlaces x .fullSet s

/-- A PARKED lane with its start pending starts once its position is READY (R85). -/
def startIfReady (x : Lane) (s : State) : State :=
  if (s.seq x).state = .parked ∧ (s.seq x).startPending ∧ (s.station (.pin x)).state = .ready then
    startLane x s
  else s

/-- The opening handed by the Account Unit (R85). In READY, HELD, BALL_OUT, SETTLE, SCAN and
LIFT_WAIT, which R85 does not list, it does as in CYCLING: the park and the start pending are
cleared and the lane goes on (DESIGN CHOICE, log entry 49). -/
def seqOpening (x : Lane) (practice : Bool) (s : State) : State :=
  let s := s.modSeq x fun q =>
    { q with practice := practice, parkPending := false, startPending := true }
  match (s.seq x).state with
  | .parked => startIfReady x s
  | .parking => s
  | .fault => s.modSeq x fun q => { q with resume := some .fullSet, startPending := false }
  | .recover =>
    match (s.seq x).order with
    | some ⟨.park, _⟩ => s
    | _ => s.modSeq x fun q => { q with resume := some .fullSet, startPending := false }
  | _ => s.modSeq x fun q => { q with startPending := false }

/-- The park handed by the Account Unit (R100). A start pending is left as it is, also in
PARKING and in RECOVER with PARK out, where R100 does not name it (DESIGN CHOICE, log entry 45;
in PARKED, log entry 16). -/
def seqPark (x : Lane) (s : State) : State :=
  let s := s.modSeq x fun q => { q with parkPending := true }
  match (s.seq x).state with
  | .ready | .held => startParking x s
  | .ballOut | .settle | .scan =>
    let s := dropScored x (s.modSeq x fun q => { q with settleTimer := none })
    startParking x (withdrawOrder x s)
  | .liftWait => startParking x (withdrawPlace x s)
  | .recover | .fault => s.modSeq x fun q => { q with resume := some .park }
  | .cycling | .starting | .parking | .parked => s

/-! ### Scans and scoring (R90 to R93) -/

/-- The scored ball is scored with an after set (R92): the disposition chooses the cycle order, and
places are asked for it. A ball launched without a slot, on a practice lane that an opening has made
non-practice since (log entry 49), names no bowler for the result that R92 asks for: nothing is
handed to the Score Engine, and NEW_RACK is taken (DESIGN CHOICE, log entry 53). -/
def scoreBall (x : Lane) (after : PinSet) (doubt : Bool) (s : State) : State :=
  let copy := (s.laneTransit x).copy
  let (s, d) :=
    if (s.seq x).practice then (s, Disposition.newRack)
    else
      match copy.bind (·.slot) with
      | none => (s, Disposition.newRack)
      | some k =>
        ballResult
          { slot := k, lane := x, before := (s.seq x).standing, after := after,
            foul := (copy.map (·.foul)).getD false, inferred := (copy.map (·.inferred)).getD false,
            doubt := doubt, speed := copy.bind (·.speed) } s
  let s := s.modSeq x fun q => { q with scored := none, retry := false }
  let s := s.modLane x fun l => { l with copy := none }
  startCycle x (match d with | .sameRack set => .respot set | .newRack => .fullSet) s

/-- The SCAN of a scored ball has ended DONE with a reported set (R91). -/
def scanDone (x : Lane) (reported : PinSet) (s : State) : State :=
  let before := (s.seq x).standing
  if reported.within before then scoreBall x reported false s
  else if (s.seq x).retry = false then
    issueOrder x .scan (s.modSeq x fun q => { q with retry := true })
  else
    let used := reported &&& before
    scoreBall x used true (offer (.scanDoubt x reported before used) s)

/-- The standing set is set to a reported set. -/
def setStanding (x : Lane) (set : PinSet) (s : State) : State :=
  s.modSeq x fun q => { q with standing := set }

/-- The lift order of CYCLING has ended DONE (R93). -/
def cycleDone (x : Lane) (o : PinOrder) (reported : PinSet) (s : State) : State :=
  match o with
  | .fullSet =>
    let s := setStanding x reported s
    if reported = PinSet.full then restPoint x s else enterFault x .setMismatch none s
  | .respot set =>
    let s := setStanding x reported s
    if reported = set then restPoint x s else enterFault x .setMismatch none s
  | _ => restPoint x s

/-- PARK has ended DONE (R101, R85): the lane is PARKED, and starts again if a start is pending,
though its account may have closed since (DESIGN CHOICE, log entry 45). -/
def parkDone (x : Lane) (s : State) : State := startIfReady x (enterParked x s)

/-- An order of RECOVER has ended DONE (R99). After CLEAR the resume order is issued. An order
that is no longer the resume order, because a park or an opening has changed the record, sets the
standing set and is followed by the resume order. -/
def recoverDone (x : Lane) (o : PinOrder) (reported : PinSet) (s : State) : State :=
  match o with
  | .clear => issueResume x (s.modSeq x fun q => { q with clearStep := false })
  | .park => parkDone x s
  | _ =>
    let s := if o = .liftOnly then s else setStanding x reported s
    if (s.seq x).resume.getD .scan = o then
      restPoint x (s.modSeq x fun q => { q with resume := none })
    else issueResume x s

/-- The outstanding order of sequencer `x` has been echoed DONE (R82, R83). -/
def seqDone (x : Lane) (reported : PinSet) (s : State) : State :=
  match (s.seq x).order with
  | none => s
  | some o =>
    let st := (s.seq x).state
    let s := endOrder x s
    match st with
    | .starting => restPoint x (setStanding x reported s)
    | .scan => scanDone x reported s
    | .cycling => cycleDone x o.order reported s
    | .parking => parkDone x s
    | .recover => recoverDone x o.order reported s
    | _ => s

/-- The outstanding order has been echoed REFUSED (R83). -/
def seqRefused (x : Lane) (reason : Byte) (s : State) : State :=
  match (s.seq x).order with
  | none => s
  | some _ => seqFault x .orderRefused (some reason) s

/-- A changed condition of pinsetter `x` (R96). -/
def seqCondition (x : Lane) (condition : Byte) (s : State) : State :=
  let s := s.modSeq x fun q => { q with condition := condition }
  if condition = 0 then s else seqFault x .station (some condition) s

/-- Position `x` has entered READY (R82, R85). -/
def seqPositionReady (x : Lane) (s : State) : State := startIfReady x (offerOrder x s)

/-! ### Clears and the warm reset (R97, R98, R69, R102) -/

/-- A lane in FAULT is cleared (R97, R69): it goes to RECOVER with the clear step set. -/
def clearFault (x : Lane) (s : State) : State :=
  enterRecover x (s.modSeq x fun q => { q with fault := none, clearStep := true })

/-- FAULT_CLEAR of a lane, and the console clear (R97, R98). -/
def clearLane (x : Lane) (s : State) : State :=
  let s := s.modSeq x fun q => { q with fault := none }
  clearFault x (offer (.faultCleared (.lane x)) s)

/-- The codes a console may clear (section 5.7). -/
def FaultCode.consoleClears : FaultCode → Bool
  | .link | .trigger | .estop => false
  | _ => true

/-- A CALL taken from console `x` reaches its sequencer (R98). -/
def consoleClear (x : Lane) (s : State) : State :=
  match (s.seq x).state, (s.seq x).fault with
  | .fault, some f => if f.code.consoleClears then clearLane x s else s
  | _, _ => s

/-- The clear of the ESTOP latch reaches sequencer `x` (R69). -/
def estopCleared (x : Lane) (s : State) : State :=
  match (s.seq x).state, (s.seq x).fault with
  | .fault, some ⟨.estop, _⟩ => clearFault x s
  | _, _ => s

/-- Sequencer `x` at a warm reset (R102). A lane whose account is CLOSED enters PARKED as every
entry into PARKED is made, with no resume order (log entry 16). -/
def warmResetSeq (x : Lane) (s : State) : State :=
  let q := s.seq x
  let starting := q.state = .starting ∨ (q.state = .parked ∧ q.startPending)
  let s := s.modSeq x fun q =>
    { q with
      scored := none, retry := false, order := none, place := none, settleTimer := none,
      orderTimer := none, fault := none, clearStep := false, parkPending := false,
      startPending := false, pitStuck := false, condition := 0
      resume := if starting then some .fullSet else none }
  if (s.acct x).state = .closed then enterParked x s else enterRecover x s

end Sys2Proof.Machine
end

