-- ==== Sys2Proof/Machine/Closing.lean ====
section
/-! DEFINITION. The settlement and the completion of a close (sections 9.6, 9.7 and 6.9), with the
layout of the settlement record (section 10.5). -/

namespace Sys2Proof.Machine

/-! ### Encodings of R181 that the settlement record uses -/

/-- A lane (R181). -/
def Lane.code : Lane → Byte
  | .A => 0
  | .B => 1

/-- A value of `width` bytes, or its absent code of all ones. -/
def optBytes (width : Nat) : Option Nat → List Byte
  | some n => beBytes width n
  | none => List.replicate width 0xFF#8

/-- A validity (R181). -/
def Validity.code : Validity → Byte
  | .invalid => 0
  | .valid => 1
  | .stale => 2

/-- A method (R184). -/
def Method.code : Method → Byte
  | .perTime => 0
  | .perGame => 1
  | .perBowler => 2

/-- A centre minute and its validity: the absent code when INVALID (R181). -/
def StampedMinute.bytes (m : StampedMinute) : List Byte :=
  optBytes 2 (if m.validity = .invalid then none else m.minute) ++ [m.validity.code]

/-- The two bytes of minutes billed; a value that they cannot hold is left open (log entry 6). -/
def minutesBytes (n : Nat) : List Byte :=
  beBytes 2 (if n ≤ 65535 then n else (Config.minutesBeyondField n).toNat)

/-- The settlement record, 25 bytes (section 10.5). -/
def Settlement.bytes (r : Settlement) : List Byte :=
  [Lane.code r.lane, r.method.code] ++ r.openedAt.bytes ++ r.closedAt.bytes ++
    minutesBytes r.minutesBilled ++ beBytes 2 r.stoppageMinutes ++ beBytes 2 r.gamesCharged ++
    beBytes 2 r.bowlersCharged ++ beBytes 4 r.charge ++ optBytes 4 r.credit ++
    [flagByte [r.clamped, r.saturated, r.forced, r.writeOffs]]

/-! ### The settlement (R176, R177) -/

/-- The minutes a PER_TIME settlement bills: rounded up to the increment, and raised to the
minimum (R176, steps 1 to 3). -/
def billedMinutes (t : RateTable) (m : Nat) : Nat :=
  max t.minimum ((m + (t.increment - 1)) / t.increment * t.increment)

/-- The charge before any clamp (R176 step 5, R177), rounded up to a whole cent. -/
def rawCharge (a : Account) (t : RateTable) (hour : Nat) : Nat :=
  match a.method with
  | .perTime => (a.meter + (billedMinutes t a.minutesBilled - a.minutesBilled) * hour + 59) / 60
  | _ => a.meter / 60

/-- The settlement of lane `x`'s account as it stands (R176, R177). -/
def settlement (x : Lane) (s : State) : Settlement :=
  let a := s.acct x
  let t := s.account.rates
  let perTime : Bool := a.method = .perTime
  let raw := rawCharge a t (bandInForce s).hour
  let limit := a.credit.getD moneyLimit
  let beyond : Bool := perTime && limit < raw
  { lane := x
    method := a.method
    openedAt := a.openedAt
    closedAt := stampedMinute s
    minutesBilled := if perTime then billedMinutes t a.minutesBilled else 0
    stoppageMinutes := a.stoppageMinutes
    gamesCharged := a.gamesCharged
    bowlersCharged := a.bowlersCharged
    charge := if beyond then limit else raw
    credit := a.credit
    clamped := beyond && a.credit.isSome
    saturated := a.saturated || (beyond && a.credit.isNone)
    forced := a.forced
    writeOffs := a.writeOffs }

/-! ### Completion (R175, R120) -/

/-- Whether lane `x` is clear of balls (R120). -/
def laneClear (x : Lane) (t : Transit) : Bool :=
  (t.lanes.get x).inFlight.isEmpty && (t.lanes.get x).pitHold.isEmpty &&
    t.track.all fun e => e.lane ≠ x

/-- The close of lane `x` completes (R175). -/
def completeClose (x : Lane) (s : State) : State :=
  let s := s.modAcct x fun a => { a with closeTimer := none }
  let s := s.modLane x fun l => { l with closeWatch := false }
  let record := settlement x s
  let s := s.modAcct x fun a => { a with last := some record }
  let s := removeHold x .closing (setAccountState x .closed s)
  let s := offer (.settlement record) (seqPark x s)
  match s.command.slot with
  | some ⟨_, _, _, .closing y⟩ => if y = x then completeDeferred .done record.bytes s else s
  | _ => s

/-- The close watch of lane `x` (R120): at the first event that makes the lane clear, the close
completes. -/
def checkClear (x : Lane) (s : State) : State :=
  if (s.laneTransit x).closeWatch ∧ laneClear x s.transit then completeClose x s else s

end Sys2Proof.Machine
end

