-- ==== Sys2Proof/Machine/Transit.lean ====
section
/-! DEFINITION. The Transit Monitor (chapter 6): launches, pit arrivals, fouls, speed, lifts, the
return track, return faults, the ESTOP freeze and the close write-off. -/

namespace Sys2Proof.Machine

/-! ### Fouls and the idle timer -/

/-- A foul attribution is handed to the Line Unit (R74): the foul indication rises, or its timer
starts again. -/
def attributeFoul (x : Lane) (s : State) : State :=
  s.modLineUnit fun u =>
    { u with foulLamp := u.foulLamp.set x (some (s.now + s.command.timing.foulLamp * 1000)) }

/-- The foul flag of `b`, the newest record of lane `x`'s FIFO, is set, and the copy's with it where
the record is the scored ball (R108, R109); `held` says whether it is. -/
def foulNewest (x : Lane) (b : BallRecord) (held : Bool) (s : State) : State :=
  attributeFoul x <| s.modLane x fun l =>
    { l with
      inFlight := l.inFlight.dropLast ++ [{ b with foul := true }]
      copy := if held then l.copy.map fun c => { c with foul := true } else l.copy }

/-- The idle timer is restarted for the idle cutoff (R121). -/
def restartIdle (s : State) : State :=
  s.modTransit fun t => { t with idleTimer := s.startTimer (s.command.timing.idleCutoff * 1000) }

/-- A write-off raises the net write-off counter (R122). -/
def writeOff (n : Nat) (s : State) : State :=
  s.modTransit fun t => { t with writeOffs := t.writeOffs + BitVec.ofNat 32 n }

/-- The lost-on-lane count rises by one, unless it stands at 4 (R104, R105). -/
def raiseLost (x : Lane) (s : State) : State :=
  s.modLane x fun l => { l with lost := satAdd 4 l.lost 1 }

/-! ### The flight timer (R105) -/

/-- The time-base value at which a record's flight time is over (R105). -/
def flightExpiry (b : BallRecord) (s : State) : Nat :=
  b.launch.getD 0 + s.command.timing.flightTimeout

/-- The oldest record of lane `x` is written off at its flight timeout (R105). -/
def loseOldest (x : Lane) (s : State) : State :=
  match (s.laneTransit x).inFlight with
  | [] => s
  | b :: rest =>
    let s := s.modLane x fun l => { l with inFlight := rest }
    let s := writeOff 1 (raiseLost x s)
    let s := offer (.ballLost x (b.launch.getD 0)) s
    if (s.seq x).scored = some b.id then
      scoredLost x (s.modLane x fun l => { l with copy := none })
    else s

/-- Start lane `x`'s flight timer on the oldest record, or stop it (R105). A record whose expiry
point has already passed expires at once; `n` bounds how many do. -/
def startFlight : Nat → Lane → State → State
  | 0, _, s => s
  | n + 1, x, s =>
    match (s.laneTransit x).inFlight with
    | [] => s.modLane x fun l => { l with flightTimer := .stopped }
    | b :: _ =>
      if s.transit.frozen = false ∧ flightExpiry b s < s.now then
        startFlight n x (loseOldest x s)
      else s.modLane x fun l => { l with flightTimer := s.startTimerAt (flightExpiry b s) }

/-- The flight timer of lane `x` for the oldest record as it stands. -/
def restartFlight (x : Lane) (s : State) : State :=
  startFlight ((s.laneTransit x).inFlight.length + 1) x s

/-! ### Launches (R104, R86) -/

/-- Sequencer `x` is asked about the ball `id` (R86): the lane scores it in READY, for the UP
bowler unless the lane is practice. -/
def scoredSlot (x : Lane) (s : State) : Option Slot :=
  if (s.seq x).practice then none else upBowler x s

/-- A launch of lane `x` at time `t` (R104). -/
def launchBall (x : Lane) (t : Nat) (s : State) : State :=
  let s := s.modTransit fun m => { m with seen := m.seen + 1 }
  if (s.laneTransit x).inFlight.length < 4 then
    let id := s.nextBall
    let scored : Bool := (s.seq x).state = .ready
    let slot := if scored then scoredSlot x s else none
    let first := (s.laneTransit x).inFlight = []
    let record : BallRecord :=
      { id := id, lane := x, launch := some t, slot := slot, scored := scored, foul := false,
        inferred := false, speed := none }
    let s := { s with nextBall := id + 1 }
    let s := s.modLane x fun l =>
      { l with
        inFlight := l.inFlight ++ [record]
        copy := if scored then some ⟨slot, false, false, none⟩ else l.copy }
    let s :=
      if scored then enterState x .ballOut (s.modSeq x fun q => { q with scored := some id }) else s
    let s :=
      if (s.laneTransit x).pendingFoul = .stopped then s
      else foulNewest x record scored (s.modLane x fun l => { l with pendingFoul := .stopped })
    if first then restartFlight x s else s
  else writeOff 1 (raiseLost x s)

/-! ### Pit arrivals (R106, R107, R111) -/

/-- The speed of a ball in tenths of km/h (R111): the gate distance in cm, times 360, divided by the
time in ms, to the nearest whole number with an exact half rounded up; outside 50..400 it is
absent. -/
def ballSpeed (gate time : Nat) : Option Nat :=
  let t := max time 1
  let v := (2 * (gate * 360) + t) / (2 * t)
  if 50 ≤ v ∧ v ≤ 400 then some v else none

/-- A record joins lane `x`'s pit hold, or is written off when it is full (R106, R107); `joined`
says which. -/
def joinPit (x : Lane) (b : BallRecord) (s : State) : State × Bool :=
  let hold := (s.laneTransit x).pitHold
  if hold.length < 4 then
    let s := s.modLane x fun l => { l with pitHold := l.pitHold ++ [b] }
    (if hold = [] ∧ (s.laneTransit x).liftOut then startPitTimer x s else s, true)
  else (writeOff 1 s, false)

/-- A pit arrival with a record in flight (R106): the oldest is paired. -/
def pairArrival (x : Lane) (t : Nat) (b : BallRecord) (rest : List BallRecord) (s : State) :
    State :=
  let held : Bool := (s.seq x).scored = some b.id
  let speed := ballSpeed s.command.timing.gateDistance (t - b.launch.getD 0)
  let s := s.modLane x fun l =>
    { l with
      inFlight := rest
      copy := if held then l.copy.map fun c => { c with speed := speed } else l.copy }
  let (s, joined) := joinPit x { b with speed := speed } s
  let s := if held then scoredInPit x s else s
  let s := if joined then ballJoined x s else s
  restartFlight x s

/-- A pit arrival of a ball that was given up on the lane (R107, count above 0). -/
def lostArrival (x : Lane) (s : State) : State :=
  let s := s.modLane x fun l => { l with lost := l.lost - 1 }
  let s := s.modTransit fun m => { m with writeOffs := m.writeOffs - 1 }
  let record : BallRecord :=
    { id := s.nextBall, lane := x, launch := none, slot := none, scored := false, foul := false,
      inferred := false, speed := none }
  let s := { s with nextBall := s.nextBall + 1 }
  let (s, joined) := joinPit x record s
  if joined then ballJoined x s else s

/-- A pit arrival that is an inferred launch (R107, R87). -/
def inferredArrival (x : Lane) (s : State) : State :=
  let s := s.modTransit fun m => { m with inferred := m.inferred + 1 }
  let id := s.nextBall
  let scored : Bool := (s.seq x).state = .ready
  let slot := if scored then scoredSlot x s else none
  let record : BallRecord :=
    { id := id, lane := x, launch := none, slot := slot, scored := scored, foul := false,
      inferred := true, speed := none }
  let s := { s with nextBall := id + 1 }
  let s :=
    if scored then
      let s := s.modLane x fun l => { l with copy := some ⟨slot, false, true, none⟩ }
      enterSettle x (s.modSeq x fun q => { q with scored := some id })
    else s
  let (s, joined) := joinPit x record s
  if joined then ballJoined x s else s

/-- A pit arrival of lane `x` at time `t` (R106, R107). -/
def pitBall (x : Lane) (t : Nat) (s : State) : State :=
  let s := restartIdle s
  let s :=
    match (s.laneTransit x).inFlight with
    | b :: rest => pairArrival x t b rest s
    | [] => if 0 < (s.laneTransit x).lost then lostArrival x s else inferredArrival x s
  checkClear x s

/-! ### Foul edges (R109) -/

/-- A foul edge of lane `x` at time `t` (R109): attributed to the newest record launched no more
than the foul window before it, or else pending. -/
def foulBall (x : Lane) (t : Nat) (s : State) : State :=
  let window := s.command.timing.foulWindow
  let pend := s.modLane x fun l =>
    { l with pendingFoul := if s.transit.frozen then .frozen window else .running (t + window) }
  match (s.laneTransit x).inFlight.getLast? with
  | some b =>
    match b.launch with
    | some l =>
      if l ≤ t ∧ t - l ≤ window then foulNewest x b ((s.seq x).scored = some b.id) s else pend
    | none => pend
  | none => pend

/-! ### The return track (R112, R114, R117) -/

/-- The track timer (R114): it runs while the rack holds fewer than 10, no return fault stands and
the track is not empty; it starts for the full timeout when it is not running and they come to
hold, and stops when one fails. -/
def serviceTrack (s : State) : State :=
  if s.transit.rack.val < 10 ∧ s.transit.fault = none ∧ s.transit.track ≠ [] then
    if s.transit.trackTimer = .stopped then
      s.modTransit fun t => { t with trackTimer := s.startTimer s.command.timing.trackTimeout }
    else s
  else s.modTransit fun t => { t with trackTimer := .stopped }

/-- The oldest track entry has changed: the track timer starts afresh or stops (R114, R120). -/
def restartTrack (s : State) : State :=
  serviceTrack (s.modTransit fun t => { t with trackTimer := .stopped })

/-- A cause of a return fault arises (R117): with one standing, nothing is recorded. -/
def raiseReturnFault (code : ReturnFaultCode) (station : Option Byte) (s : State) : State :=
  if s.transit.fault = none then
    offer (.returnFault code station) <| s.modTransit fun t =>
      { t with fault := some ⟨code, station⟩, trackTimer := .stopped }
  else s

/-- A ball joins the tail of the return track (R112). -/
def joinTrack (x : Lane) (s : State) : State :=
  serviceTrack (s.modTransit fun t => { t with track := t.track ++ [⟨x, s.now⟩] })

/-- One lift of pinsetter `x` (R112). The OVERFULL of a lift that is written off is raised before
the lane is tested clear (R120), so that RETURN_FAULT joins the notice queue before SETTLEMENT, an
order that the spec leaves open (DESIGN CHOICE, log entry 50). -/
def liftBall (x : Lane) (s : State) : State :=
  let s := restartIdle s
  let s :=
    match (s.laneTransit x).pitHold with
    | [] => s.modTransit fun t => { t with inferred := t.inferred + 1 }
    | _ :: rest =>
      let s := s.modLane x fun l => { l with pitHold := rest }
      if rest = [] then s.modLane x fun l => { l with pitTimer := .stopped }
      else if (s.laneTransit x).liftOut then startPitTimer x s
      else s
  let s :=
    if 0 < (s.laneTransit x).reservation then
      joinTrack x (s.modLane x fun l => { l with reservation := l.reservation - 1 })
    else if 0 < freePlaces s.transit then joinTrack x s
    else raiseReturnFault .overfull none (writeOff 1 s)
  checkClear x s

/-- One arrival at the rack (R114). The place it frees is granted (R115) before the lane is tested
clear (R120), an order that the spec leaves open (DESIGN CHOICE, log entry 36). -/
def rackArrival (s : State) : State :=
  let s := restartIdle s
  match s.transit.track with
  | [] => s.modTransit fun t => { t with strays := t.strays + 1 }
  | e :: rest =>
    let s := s.modTransit fun t => { t with track := rest, matched := t.matched + 1 }
    checkClear e.lane (grantTest (restartTrack s))

/-- The rack occupancy of a good return report (R114). -/
def setRack (n : Fin 11) (s : State) : State :=
  serviceTrack (s.modTransit fun t => { t with rack := n })

/-- FAULT_CLEAR(RETURN) that is DONE (R118). -/
def clearReturnFault (s : State) : State :=
  let s := s.modTransit fun t => { t with fault := none }
  grantTest (serviceTrack (offer (.faultCleared .ret) s))

/-! ### The ESTOP freeze (R119) -/

/-- Apply a change to every transit timer. -/
def Transit.mapTimers (t : Transit) (f : TransitTimer → TransitTimer) : Transit :=
  let g := fun l : LaneTransit =>
    { l with pendingFoul := f l.pendingFoul, flightTimer := f l.flightTimer,
             pitTimer := f l.pitTimer }
  { t with lanes := ⟨g t.lanes.a, g t.lanes.b⟩, trackTimer := f t.trackTimer,
           idleTimer := f t.idleTimer }

/-- The latch is handed to the Transit Monitor: every timer freezes with its remaining time. -/
def freezeTransit (s : State) : State :=
  s.modTransit fun t => { t.mapTimers (TransitTimer.freeze s.now) with frozen := true }

/-- The clear of the latch: every frozen timer resumes from its remaining time. -/
def resumeTransit (s : State) : State :=
  s.modTransit fun t => { t.mapTimers (TransitTimer.resume s.now) with frozen := false }

/-! ### The close write-off (R120) -/

/-- The balls of lane `x` that a close write-off removes. -/
def laneBalls (x : Lane) (t : Transit) : Nat :=
  (t.lanes.get x).inFlight.length + (t.lanes.get x).pitHold.length +
    (t.track.filter fun e => e.lane = x).length

/-- The close write-off of lane `x` (R120). -/
def closeWriteOff (x : Lane) (s : State) : State :=
  let n := laneBalls x s.transit
  let oldest := s.transit.track.head?
  let s := s.modLane x fun l =>
    { l with inFlight := [], pitHold := [], pendingFoul := .stopped, flightTimer := .stopped,
             pitTimer := .stopped }
  let s := s.modTransit fun t => { t with track := t.track.filter fun e => e.lane ≠ x }
  let s := writeOff n s
  let s := if (oldest.map (·.lane)) = some x then restartTrack s else s
  grantTest s

end Sys2Proof.Machine
end

