-- ==== Sys2Proof/Machine/RosterDesk.lean ====
section
/-! DEFINITION. The commands that reach the Roster Unit: the session, adding, moving, withdrawing
and skipping bowlers (sections 7.1, 7.2, 7.6 and 7.7), and the end of a session in the Score
Engine. -/

namespace Sys2Proof.Machine

/-- Whether no roster slot is occupied. -/
def rosterEmpty (s : State) : Bool := (List.finRange 12).all fun k => (s.entry k).isNone

/-- SESSION_SET with a mode, format and cross start inside their lists (R125): the games limit is
not clamped, and an occupied slot refuses the command. -/
def setSession (mode : Mode) (format : Format) (limit : Nat) (start : Lane) (s : State) :
    State × Status :=
  if 20 < limit then (s, .range)
  else if rosterEmpty s then
    (s.modRoster fun r =>
      { r with session := ⟨mode, format, limit, start⟩, team1Lane := start }, .done)
  else (s, .state)

/-- The Score Engine at SESSION_END (R161). -/
def emptyScores (s : State) : State :=
  let held := (List.finRange 12).filter fun k => (s.bowler k).isSome
  let s := markBoth (held.flatMap slotItems) s
  { s with score := { bowlers := Vector.replicate 12 none, certified := false } }

/-- SESSION_END (R126). -/
def endSession (s : State) : State × Status :=
  if (s.acct .A).state = .closed ∧ (s.acct .B).state = .closed then
    let s := s.modRoster fun r =>
      { r with entries := Vector.replicate 12 none, queues := .both [], handover1 := [],
               handover2 := [], team1Lane := r.session.crossStart }
    (syncBoth (emptyScores s), .done)
  else (s, .state)

/-- The target of a ROSTER_ADD (R184). -/
inductive Target where
  | lane (lane : Lane)
  | team (team : Team)
deriving DecidableEq, Repr

/-- Put slot `k` in its roster entry with a new bowler record (R127, R143). Nothing is marked in the
dirty lists, though the slot's TOTAL of game index 0 is no longer absent: R153's table has no row for
it (DESIGN CHOICE, log entry 54). -/
def newEntry (k : Slot) (status : BowlerStatus) (team : Option Team) (x : Lane) (s : State) :
    State :=
  let e : RosterEntry :=
    { status := status, team := team, lane := x, games := 0, pendingWithdraw := false,
      chargedSession := false, gameCharged := false }
  (s.modRoster fun r => { r with entries := r.entries.set k.val (some e) k.isLt }).setBowler k
    (some .new)

/-- Slot `k` joins the tail of lane `x`'s queue (R128): in an empty queue it becomes UP. -/
def joinQueue (x : Lane) (k : Slot) (s : State) : State :=
  let queue := s.roster.queues.get x
  let s := setQueue x (queue ++ [k]) s
  if queue = [] then headBecomesUp x s else s

/-- A target of the wrong kind for the mode gives no lane queue and no team (R127). -/
def targetFits (m : Mode) : Target → Bool
  | .lane _ => m = .opened
  | .team _ => m = .cross

/-- ROSTER_ADD with a target inside its list (R127). A target of the wrong kind for the mode with a
slot that is occupied is RANGE and not FULL: R127 gives both, and R20 leaves the order of an owner's
checks to it (DESIGN CHOICE, log entry 58). -/
def addBowler (k : Slot) (target : Target) (s : State) : State × Status :=
  if targetFits s.roster.session.mode target = false then (s, .range)
  else if (s.entry k).isSome then (s, .full)
  else
    match target with
    | .lane x => (settleRoster (joinQueue x k (newEntry k .waiting none x s)), .done)
    | .team t =>
      let x := s.roster.teamLane t
      if s.roster.inHandover t then
        let s := newEntry k .handover (some t) x s
        (settleRoster (s.modRoster fun r => r.setHandover t (r.handover t ++ [k])), .done)
      else (settleRoster (joinQueue x k (newEntry k .waiting (some t) x s)), .done)

/-- Carry out a move of slot `k`, whose entry is `e`, to lane `x` (R135). The new head of the lane that
he leaves becomes UP before he does on lane `x`, an order that R135 leaves open (DESIGN CHOICE, log
entry 25). -/
def moveNow (k : Slot) (e : RosterEntry) (x : Lane) (s : State) : State :=
  let s := removeSlot k s
  let s := s.modEntry k fun e => { e with status := .waiting, lane := x }
  let s := if e.status = .up then headBecomesUp e.lane (leftUp e.lane k s) else s
  settleRoster (joinQueue x k s)

/-- ROSTER_MOVE of a slot inside its range to a lane (R135). -/
def moveBowler (k : Slot) (x : Lane) (s : State) : State × Status :=
  if s.roster.session.mode = .cross then (s, .state)
  else
    match s.entry k with
    | none => (s, .state)
    | some e =>
      if e.status = .done ∨ e.status = .withdrawn then (s, .state)
      else if e.lane = x then (s, .state)
      else if e.status = .up ∧ ballInFrame e.lane k s then (s, .state)
      else if e.gameCharged ∧ gameEmpty k s then (s, .state)
      else (moveNow k e x s, .done)

/-- ROSTER_WITHDRAW of a slot inside its range (R136). -/
def withdrawBowler (k : Slot) (s : State) : State × Status :=
  match s.entry k with
  | none => (s, .state)
  | some e =>
    if e.status = .done ∨ e.status = .withdrawn then (s, .state)
    else if e.pendingWithdraw then (s, .done)
    else if e.status = .up ∧ ballInFrame e.lane k s then
      (s.modEntry k fun e => { e with pendingWithdraw := true }, .done)
    else (withdrawNow k e s, .done)

/-- SKIP on lane `x`, from the desk or from its console (R134). -/
def skipBowler (x : Lane) (s : State) : State × Status :=
  match s.roster.queues.get x with
  | a :: b :: rest =>
    if ballInFrame x a s then (s, .state)
    else
      let s := setStatus a .waiting (setQueue x (b :: a :: rest) s)
      (headBecomesUp x (leftUp x a s), .done)
  | _ => (s, .state)

end Sys2Proof.Machine
end

