-- ==== Sys2Proof/Machine/Formats.lean ====
section
/-! DEFINITION. Every byte layout that the part sends (chapter 10): the code tables, the read
replies and the notice bodies. -/

namespace Sys2Proof.Machine

/-! ### Codes (sections 10.3 and 10.7) -/

/-- Sequencer states. -/
def SeqState.code : SeqState → Byte
  | .parked => 0
  | .starting => 1
  | .ready => 2
  | .held => 3
  | .ballOut => 4
  | .settle => 5
  | .scan => 6
  | .liftWait => 7
  | .cycling => 8
  | .fault => 9
  | .recover => 10
  | .parking => 11

/-- Account states. -/
def AccountState.code : AccountState → Byte
  | .closed => 0
  | .opened => 1
  | .locked => 2
  | .closing => 3

/-- Station states. -/
def StationState.code : StationState → Byte
  | .absent => 0
  | .joining => 1
  | .ready => 2
  | .lost => 3
  | .quiet => 4

/-- Fault codes. -/
def FaultCode.code : FaultCode → Byte
  | .station => 0
  | .orderRefused => 1
  | .cycleTimeout => 2
  | .scanTimeout => 3
  | .setMismatch => 4
  | .pitJam => 5
  | .link => 6
  | .trigger => 7
  | .estop => 8

/-- Return fault codes. -/
def ReturnFaultCode.code : ReturnFaultCode → Byte
  | .trackJam => 0
  | .overfull => 1
  | .returnLink => 2
  | .returnStation => 3

/-- Roster status; 0 is an empty slot. -/
def BowlerStatus.code : BowlerStatus → Nat
  | .waiting => 1
  | .up => 2
  | .handover => 3
  | .done => 4
  | .withdrawn => 5

/-- Banners. -/
def Banner.code : Banner → Byte
  | .closed => 0
  | .opened => 1
  | .locked => 2
  | .held => 3
  | .fault => 4

/-- Input lines. -/
def lineCode : InputLine → Byte
  | .foul .A => 0
  | .foul .B => 1
  | .launch .A => 2
  | .launch .B => 3
  | .pit .A => 4
  | .pit .B => 5
  | .estop => 6

/-- Charge kinds. -/
def ChargeKind.code : ChargeKind → Byte
  | .game => 0
  | .bowler => 1

/-- Unlock causes. -/
def UnlockCause.code : UnlockCause → Byte
  | .creditAdded => 0
  | .chargeMade => 1
  | .chargeCancelled => 2

/-- Cleared targets. -/
def ClearedTarget.code : ClearedTarget → Byte
  | .lane x => Lane.code x
  | .ret => 2
  | .estop => 3

/-- Correction sources. -/
def CorrectionSource.code : CorrectionSource → Byte
  | .desk => 0
  | .console .A => 1
  | .console .B => 2

/-- Station positions (section 6 of the introduction). -/
def positionCode : Position → Byte
  | .pin .A => 0
  | .pin .B => 1
  | .ret => 2
  | .con .A => 3
  | .con .B => 4

/-- Modes. -/
def Mode.code : Mode → Byte
  | .opened => 0
  | .cross => 1

/-- Formats. -/
def Format.code : Format → Byte
  | .tenPin => 0
  | .nineTap => 1

/-- Hold-reason sets. -/
def HoldSet.code (h : HoldSet) : Byte :=
  flagByte [h.credit, h.noBowler, h.handover, h.desk, h.centre, h.closing]

/-! ### Fields (R181) -/

/-- A pin set, two bytes. -/
def pinBytes (p : PinSet) : List Byte := beBytes 2 p.toNat

/-- An optional byte. -/
def optByte (b : Option Byte) : List Byte := [b.getD 0xFF#8]

/-- A slot, one byte. -/
def slotByte (k : Slot) : Byte := BitVec.ofNat 8 k.val

/-- A mark byte. -/
def Marks.code (m : Marks) : Byte := flagByte [m.strike, m.spare, m.foul, m.split, m.gutter]

/-- A ball entry, seven bytes (section 10.5). -/
def BallEntry.bytes (b : BallEntry) : List Byte :=
  beBytes 1 b.before ++ beBytes 1 b.pinfall ++ beBytes 1 b.value ++ [b.marks.code] ++
    optBytes 2 b.speed ++ [flagByte [b.inferred, b.doubt]]

/-- A ball as SCORE_READ packs it, two bytes (R183). -/
def BallEntry.packed (b : BallEntry) : List Byte :=
  [BitVec.ofNat 8 (b.before * 16 + b.pinfall),
    flagByte [false, b.doubt, b.inferred, b.marks.gutter, b.marks.split, b.marks.foul,
      b.marks.spare, b.marks.strike]]

/-! ### Notices (sections 10.5 and 10.7) -/

/-- The kind code and the contents of a notice. -/
def NoticeBody.bytes : NoticeBody → Byte × List Byte
  | .ball x k frame n entry score total =>
    (1, [Lane.code x, slotByte k] ++ beBytes 1 frame ++ beBytes 1 n ++ entry.bytes ++
      optBytes 1 score ++ optBytes 2 total)
  | .ballLost x launch => (2, Lane.code x :: beBytes 6 launch)
  | .gameEnd k total series => (3, slotByte k :: beBytes 2 total ++ beBytes 2 series)
  | .fault x code own => (4, [Lane.code x, code.code] ++ optByte own)
  | .faultCleared target => (5, [target.code])
  | .returnFault code own => (6, code.code :: optByte own)
  | .lineFault line stuck => (7, [lineCode line, flagByte [stuck]])
  | .estop => (8, [1])
  | .scanDoubt x reported before used =>
    (9, Lane.code x :: pinBytes reported ++ pinBytes before ++ pinBytes used)
  | .station p ready =>
    (10, [positionCode p, if ready then StationState.ready.code else StationState.lost.code])
  | .creditLow x remaining => (11, Lane.code x :: beBytes 4 remaining)
  | .lock x cause =>
    (12, Lane.code x :: match cause with
      | .creditUsed => [0, 0xFF, 0xFF]
      | .chargePending k kind => [1, slotByte k, kind.code])
  | .unlock x cause => (13, [Lane.code x, cause.code])
  | .settlement record => (14, record.bytes)
  | .call x => (15, [Lane.code x])
  | .correction source k game frame n old new total series =>
    (16, [source.code, slotByte k] ++ beBytes 1 game ++ beBytes 1 frame ++ beBytes 1 n ++
      beBytes 1 old ++ beBytes 1 new ++ optBytes 2 total ++ beBytes 2 series)
  | .commandRefused broadcast code sequence status =>
    (17, [flagByte [broadcast], code, sequence, status.code])
  | .loopRestored seconds => (18, beBytes 2 seconds)

/-- The body of a notice with its head (R182). -/
def Notice.bytes (n : Notice) : List Byte :=
  n.body.bytes.1 :: beBytes 6 n.time ++ n.body.bytes.2

/-! ### Read replies (R25, R26, R185): the contents, after the two-byte head -/

/-- A sequencer's state and its fault code, two bytes. -/
def seqBytes (q : Sequencer) : List Byte :=
  q.state.code :: optByte (if q.state = .fault then q.fault.map (·.code.code) else none)

/-- The seven loop counters in the order of R17. -/
def LoopCounters.bytes (c : LoopCounters) : List Byte :=
  [c.checkErrors, c.malformed, c.dropped, c.loopDowns, c.beacons, c.repliesSent,
    c.noticesSent].flatMap (beBytes 2)

/-- The code and sequence of the deferred command that holds the slot, or 0, 0. -/
def slotBytes (d : Option Deferred) : List Byte :=
  match d with
  | some d => [d.code, d.sequence]
  | none => [0, 0]

/-- The status block (R25). -/
def statusBlock (s : State) : List Byte :=
  [BitVec.ofNat 8 s.loop.pairNumber.toNat, 1] ++ beBytes 2 s.loop.groups.toNat ++
    s.loop.counters.bytes ++ beBytes 1 s.loop.notices.length ++ beBytes 1 s.loop.replies.length ++
    slotBytes s.command.slot ++ seqBytes (s.seq .A) ++ seqBytes (s.seq .B) ++
    [(s.seq .A).holds.code, (s.seq .B).holds.code, (s.acct .A).state.code,
      (s.acct .B).state.code] ++
    optByte (s.transit.fault.map (·.code.code)) ++
    [flagByte [s.link.state ≠ .quiet, s.line.estop, s.loop.noticesLost, s.score.certified],
      (s.station (.pin .A)).state.code, (s.station (.pin .B)).state.code,
      (s.station .ret).state.code, (s.station (.con .A)).state.code,
      (s.station (.con .B)).state.code] ++
    optBytes 2 (centreMinute s) ++ beBytes 1 (centreSecond s) ++
    [(validity s).code, s.roster.session.mode.code, s.roster.session.format.code]

/-- The lane account record (R26). -/
def accountRecord (x : Lane) (s : State) : List Byte :=
  let a := s.acct x
  [Lane.code x, a.state.code, a.method.code, flagByte [a.practice]] ++ optBytes 4 a.credit ++
    beBytes 4 a.warn ++ beBytes 4 a.shownCharge ++ beBytes 2 a.minutesBilled ++
    beBytes 2 a.stoppageMinutes ++ beBytes 2 a.gamesCharged ++ beBytes 2 a.bowlersCharged ++
    optByte (a.pending.map fun p => slotByte p.slot) ++ optByte (a.pending.map (·.kind.code)) ++
    a.openedAt.bytes

/-- The last settlement of a lane with its presence byte (R26). -/
def settlementContents (x : Lane) (s : State) : List Byte :=
  match (s.acct x).last with
  | some r => 1 :: r.bytes
  | none => [0]

/-- One slot of the roster, two bytes. -/
def entryBytes (e : Option RosterEntry) : List Byte :=
  match e with
  | none => [0, 0]
  | some e =>
    let team := match e.team with
      | none => 0
      | some .one => 1
      | some .two => 2
    BitVec.ofNat 8 (e.status.code * 32 + team * 8 + (Lane.code e.lane).toNat * 4 +
      e.pendingWithdraw.toNat) :: beBytes 1 e.games

/-- The session and roster (R26). -/
def rosterContents (s : State) : List Byte :=
  let r := s.roster
  [r.session.mode.code, r.session.format.code] ++ beBytes 1 r.session.limit ++
    [Lane.code r.session.crossStart] ++ (List.finRange 12).flatMap (fun k => entryBytes (s.entry k)) ++
    [r.queues.a, r.queues.b, r.handover1, r.handover2].flatMap (fun l => beBytes 1 l.length) ++
    (r.queues.a ++ r.queues.b ++ r.handover1 ++ r.handover2).map slotByte

/-- The ball counts of a game, two bits a frame, three bytes (R183). -/
def ballCounts (frames : List FrameRecord) : List Byte :=
  let n := fun i => ((frames[i]?).map (·.balls.length)).getD 0 % 4
  [BitVec.ofNat 8 (n 0 * 64 + n 1 * 16 + n 2 * 4 + n 3),
    BitVec.ofNat 8 (n 4 * 64 + n 5 * 16 + n 6 * 4 + n 7), BitVec.ofNat 8 (n 8 * 64 + n 9 * 16)]

/-- A game as SCORE_READ packs it (R160, R183), or none where R26 refuses it. -/
def scoreContents (k : Slot) (game : Fin 4) (s : State) : Option (List Byte) :=
  (s.bowler k).bind fun g => (g.game game).map fun frames =>
    let total := if game.val = 0 then none else (g.stored[game.val - 1]?).map (·.total)
    [slotByte k, BitVec.ofNat 8 game.val, flagByte [s.score.certified]] ++ ballCounts frames ++
      optBytes 2 total ++ beBytes 2 g.reportedSeries ++
      (frames.flatMap (·.balls)).flatMap BallEntry.packed

/-- An echo: its byte and its two result bytes, which are 0 where the echo has no result (DESIGN
CHOICE, log entry 43). -/
def Echo.bytes (e : Echo) : List Byte :=
  match e.state with
  | .taken => [flagByte [e.tag], 0, 0]
  | .done set => flagByte [e.tag, true] :: pinBytes set
  | .refused reason => [flagByte [e.tag, false, true], 0, reason]

/-- A request: its byte and its five argument bytes, which are 0 where the kind has no argument. R185
codes the kinds 0 to 2 alone: the unknown kind is shown as the 3 that the report carried, and its
arguments as 0, whatever the report has there (DESIGN CHOICE, log entry 43). -/
def Request.bytes (r : Request) : List Byte :=
  BitVec.ofNat 8 (r.kind.toNat * 2 + r.tag.toNat) ::
    if r.kind = 0 then [r.slot, r.game, r.frame, r.ball, r.pinfall] else [0, 0, 0, 0, 0]

/-- An order in a slot: its kind, its tag and its three argument bytes, which are 0 where the order
has no argument; the ANSWER to a request of the unknown kind shows the kind as 3 (DESIGN CHOICE, log
entry 43). -/
def SlotOrder.bytes (o : SlotOrder) : List Byte :=
  match o.order with
  | .pin .scan => [0, flagByte [o.tag], 0, 0, 0]
  | .pin .fullSet => [1, flagByte [o.tag], 0, 0, 0]
  | .pin (.respot set) => [2, flagByte [o.tag]] ++ pinBytes set ++ [0]
  | .pin .liftOnly => [3, flagByte [o.tag], 0, 0, 0]
  | .pin .park => [4, flagByte [o.tag], 0, 0, 0]
  | .pin .clear => [5, flagByte [o.tag], 0, 0, 0]
  | .display i _ =>
    [6, flagByte [o.tag], slotByte i.slot, BitVec.ofNat 8 i.game.val,
      match i.part with
      | .frame n => BitVec.ofNat 8 n
      | .total => 11]
  | .answer tag kind status =>
    [7, flagByte [o.tag], flagByte [tag], BitVec.ofNat 8 kind.toNat, status.code]

/-- A standing state. -/
def Standing.code : Standing → Byte
  | .pin up on => flagByte [up, on]
  | .con b => b.code

/-- The station entry of a position with a station state (R48). The last byte of a pinsetter or a
console whose cell is invalid is 0 (DESIGN CHOICE, log entry 43). -/
def stationEntry (p : Position) (shown : StationState) (s : State) : List Byte :=
  let r := s.station p
  let report := r.cache.map (·.report)
  let echo := report.bind (·.echo)
  let request := report.bind (·.request)
  let flag := fun o : Option Bool => o.getD false
  [positionCode p, shown.code,
    flagByte [r.cache.isSome, r.slot.isSome, flag (r.slot.map (·.taken)), r.cell.isSome,
      flag (report.map (·.ready)), flag (report.map (·.wake)), echo.isSome, request.isSome],
    ((r.cache.map (·.round)).getD 0), ((report.map (·.condition)).getD 0)] ++
    ((echo.map Echo.bytes).getD [0, 0, 0]) ++
    [BitVec.ofNat 8 ((report.map (·.counter.toNat)).getD 0),
      BitVec.ofNat 8 ((report.map (·.occupancy.val)).getD 0)] ++
    ((request.map Request.bytes).getD [0, 0, 0, 0, 0, 0]) ++
    ((r.slot.map SlotOrder.bytes).getD [0, 0, 0, 0, 0]) ++ [(r.cell.map Standing.code).getD 0]

/-- One lane of the transit summary, nine bytes. -/
def laneTransitBytes (l : LaneTransit) (now : Nat) : List Byte :=
  beBytes 1 l.inFlight.length ++ beBytes 1 l.pitHold.length ++ beBytes 1 l.lost ++
    optBytes 2 (l.pendingFoul.remaining now) ++ [flagByte [l.liftOut]] ++
    optBytes 2 (l.pitTimer.remaining now) ++ beBytes 1 l.reservation

/-- A waiting request of the arbiter, one byte; its bits 6..4 are 0 (DESIGN CHOICE, log entry
44). -/
def Waiter.code (w : Waiter) : Byte := BitVec.ofNat 8 ((Lane.code w.lane).toNat * 128 + w.count % 16)

/-- The transit summary (R123). The byte of a waiting request that is not there is 0 (DESIGN CHOICE,
log entry 43). -/
def transitContents (s : State) : List Byte :=
  let t := s.transit
  laneTransitBytes t.lanes.a s.now ++ laneTransitBytes t.lanes.b s.now ++
    beBytes 1 t.track.length ++ [flagByte (t.track.map fun e => e.lane = .B)] ++
    beBytes 1 (freePlaces t) ++ beBytes 1 t.waiters.length ++
    [((t.waiters[0]?).map Waiter.code).getD 0, ((t.waiters[1]?).map Waiter.code).getD 0] ++
    beBytes 1 t.rack.val ++ optBytes 2 (t.trackTimer.remaining s.now) ++
    optByte (t.fault.map (·.code.code)) ++ optByte (t.fault.bind (·.station)) ++
    optBytes 2 ((t.idleTimer.remaining s.now).map fun ms => (ms + 99) / 100) ++
    [flagByte [motorDemand s, t.frozen]] ++
    [t.seen, t.inferred, t.matched, t.writeOffs, t.strays].flatMap (fun c => beBytes 4 c.toNat)

end Sys2Proof.Machine
end

