-- ==== Sys2Proof/Machine/PitLink.lean ====
section
/-! DEFINITION. The Pit Link Controller (chapter 3): rounds, reports, misses, queries, console
requests, quiet, wake and restart. -/

namespace Sys2Proof.Machine

/-- Apply a change to every position record. -/
def Stations.map {α β : Type} (v : Stations α) (f : α → β) : Stations β :=
  ⟨f v.pinA, f v.pinB, f v.ret, f v.conA, f v.conB⟩

/-- Do something at every position, 0 to 4. -/
def eachPosition (f : Position → State → State) (s : State) : State :=
  f (.con .B) (f (.con .A) (f .ret (f (.pin .B) (f (.pin .A) s))))

/-- The position after another in a round (R36). -/
def nextPosition : Position → Option Position
  | .pin .A => some (.pin .B)
  | .pin .B => some .ret
  | .ret => some (.con .A)
  | .con .A => some (.con .B)
  | .con .B => none

/-! ### Rounds (R36, R37) -/

/-- The outbound cell of a position leaves, with the order and the standing state as they stand
(R37). -/
def sendCell (p : Position) (s : State) : State :=
  s.modLink fun l => { l with sent := some ⟨p, (l.stations.get p).slot, (l.stations.get p).cell⟩ }

/-- A query whose position's mark goes out in a round head starts to count rounds (R48). -/
def carryQuery (marks : Stations Bool) (s : State) : State :=
  match s.command.slot with
  | some ⟨code, sequence, group, .query p false _⟩ =>
    if marks.get p then setSlot (some ⟨code, sequence, group, .query p true 0⟩) s else s
  | _ => s

/-- A round starts (R36): its head goes out with the pending marks, which are then clear, and the
cell of position 0 follows. -/
def startRound (s : State) : State :=
  let marks := s.link.stations.map (·.queryMark)
  let s := s.modLink fun l =>
    { l with
      state := .running
      nextRound := l.nextRound + 1
      roundTimer := some (s.now + s.command.timing.roundPeriod)
      head := some ⟨l.nextRound, l.quietPending, marks⟩
      round := some ⟨l.nextRound, l.quietPending, .pin .A, false⟩
      stations := l.stations.map fun r => { r with queryMark := false } }
  sendCell (.pin .A) (carryQuery marks s)

/-! ### Misses (R40) -/

/-- A position goes LOST (R40). STATION LOST joins the notice queue before the FAULT(LINK) or the
RETURN_FAULT that the loss raises in the same event: R40's list is no order, and R33 leaves it open
(DESIGN CHOICE, log entry 51). -/
def loseStation (p : Position) (s : State) : State :=
  let s := abandonSlot p (s.modStation p fun r => { r with state := .lost, misses := 0 })
  let s := offer (.station p false) s
  match p with
  | .pin x => seqFault x .link none s
  | .ret => raiseReturnFault .returnLink none s
  | .con _ => s

/-- A missed report (R40). -/
def missReport (p : Position) (s : State) : State :=
  if (s.station p).state = .joining ∨ (s.station p).state = .ready then
    let n := (s.station p).misses + 1
    if s.command.timing.missLimit ≤ n then loseStation p s
    else s.modStation p fun r => { r with misses := n }
  else s

/-- A round has passed without a report from the position of a waiting query (R48): at the miss
limit the query completes with state LOST. -/
def missQuery (p : Position) (s : State) : State :=
  match s.command.slot with
  | some ⟨code, sequence, group, .query q true n⟩ =>
    if q = p then
      if s.command.timing.missLimit ≤ n + 1 then
        completeDeferred .done (stationEntry p .lost s) s
      else setSlot (some ⟨code, sequence, group, .query q true (n + 1)⟩) s
    else s
  | _ => s

/-! ### Quiet and wake (R55 to R57) -/

/-- The quiet minimum, 200 ms from the quiet entry time, has passed (R57). -/
def quietMinimumOver (s : State) : Bool :=
  match s.link.quietEntry with
  | some t => t + 200 ≤ s.now
  | none => true

/-- A position enters JOINING by a wake or a warm restart (R57, R58): the station's tags are taken
at its next good report (R39). -/
def Station.toJoining (r : Station) : Station :=
  { r with state := .joining, rejoin := true, misses := 0 }

/-- The quiet round completes (R55). -/
def quietComplete (s : State) : State :=
  let s := eachPosition abandonSlot s
  let held := s.link.wakeHeld
  let s := s.modLink fun l =>
    { l with
      quietPending := false
      wakeHeld := false
      quietEntry := some s.now
      roundTimer := none
      state := if held then .waking else .quiet
      stations := l.stations.map fun r =>
        if held then r.toJoining else { r with state := .quiet, misses := 0 } }
  match held, s.command.slot with
  | false, some ⟨_, _, _, .query p _ _⟩ =>
    completeDeferred .done (stationEntry p .quiet s)
      (s.modStation p fun r => { r with queryMark := false })
  | _, _ => s

/-- A wake (R55 to R57). -/
def wakeLink (s : State) : State :=
  match s.link.state with
  | .quiet =>
    let s := s.modLink fun l => { l with stations := l.stations.map Station.toJoining }
    if quietMinimumOver s then startRound s else s.modLink fun l => { l with state := .waking }
  | _ => if s.link.quietPending then s.modLink fun l => { l with wakeHeld := true } else s

/-- Whether both accounts are CLOSED and both sequencers PARKED (R55, R58). -/
def pairAtRest (s : State) : Bool :=
  (s.acct .A).state = .closed && (s.acct .B).state = .closed && (s.seq .A).state = .parked &&
    (s.seq .B).state = .parked

/-- PIT_QUIET and the QUIET broadcast (R55). -/
def quietLink (s : State) : State × Status :=
  if s.link.state = .quiet ∨ s.link.quietPending then (s, .done)
  else if pairAtRest s then
    (s.modLink fun l => { l with quietPending := true, wakeHeld := false }, .done)
  else (s, .state)

/-! ### Restarts (R58) -/

/-- What a restart makes of a position record (R58, steps 3 to 5). -/
def Station.restart (cold : Bool) (r : Station) : Station :=
  let r := { r with queryMark := false, misses := 0 }
  if cold then { r with state := .absent, rejoin := false, cell := none, baseline := none, cache := none }
  else r.toJoining

/-- A restart of the pit link, warm or cold (R58, steps 1 to 6). -/
def restartLink (cold : Bool) (s : State) : State :=
  let s := eachPosition abandonSlot s
  let s := s.modLink fun l =>
    { l with
      round := none
      quietPending := false
      wakeHeld := false
      stations := l.stations.map (Station.restart cold)
      nextRound := if cold then 0 else l.nextRound }
  if s.link.state ≠ .running ∧ quietMinimumOver s = false then
    s.modLink fun l => { l with state := .waking, roundTimer := none }
  else startRound s

/-! ### The end of a report window and of a round -/

/-- A round completes (R36): the restart that it was the first round of completes (R58), and a
quiet round makes the link quiet (R55). -/
def roundComplete (quiet : Bool) (s : State) : State :=
  let s := s.modLink fun l => { l with round := none }
  let s :=
    match s.command.slot with
    | some ⟨_, _, _, .restarting⟩ => completeDeferred .done [] s
    | _ => s
  if quiet then quietComplete s else s

/-- The report window of position `p` closes (R38): only the open window can. Without a report,
the position's miss is handled (R40) before a waiting query's (R48), so that a query that ends
here shows the position as LOST has left it, an order that R48 gives for a report alone (DESIGN
CHOICE, log entry 42). -/
def closeWindow (p : Position) (s : State) : State :=
  match s.link.round with
  | none => s
  | some r =>
    if r.position = p then
      let s := if r.reported then s else missQuery p (missReport p s)
      match nextPosition p with
      | some q =>
        sendCell q (s.modLink fun l => { l with round := some ⟨r.number, r.quiet, q, false⟩ })
      | none => roundComplete r.quiet s
    else s

/-! ### Reports (R39 to R44) -/

/-- The position takes the station's present tags (R39). -/
def Station.takeTags (console : Bool) (rep : Report) (r : Station) : Station :=
  { r with
    rejoin := false
    nextTag := match rep.echo with
      | some e => !e.tag
      | none => false
    requestTag := if console then rep.request.map (·.tag) else r.requestTag }

/-- Whether a position is a console. -/
def isConsole : Position → Bool
  | .con _ => true
  | _ => false

/-- The owner of a position is told that it has entered READY (R39, R54). -/
def stationReady (p : Position) (s : State) : State :=
  match p with
  | .pin x => seqPositionReady x s
  | .ret => s
  | .con x => serviceConsole x (markConsole x allItems s)

/-- Step 1 of R41: the station state. STATION READY joins the notice queue before the FAULT of a
start that it brings on (R85), an order that the spec leaves open (DESIGN CHOICE, log entry 51). -/
def reportState (p : Position) (rep : Report) (s : State) : State :=
  let s := s.modStation p fun r =>
    let entered := r.state == .absent || r.state == .lost
    let r := if entered then { r with state := .joining } else r
    let r := if entered || r.rejoin then r.takeTags (isConsole p) rep else r
    { r with misses := 0 }
  if (s.station p).state = .joining ∧ rep.ready then
    stationReady p (offer (.station p true) (s.modStation p fun r => { r with state := .ready }))
  else s

/-- Step 2 of R41: lifts, arrivals and the rack occupancy (R46). -/
def reportCounter (p : Position) (rep : Report) (s : State) : State :=
  let n := match (s.station p).baseline with
    | some b => (rep.counter - b).toNat
    | none => 0
  match p with
  | .pin x => times (liftBall x) n (s.modStation p fun r => { r with baseline := some rep.counter })
  | .ret =>
    setRack rep.occupancy
      (times rackArrival n (s.modStation p fun r => { r with baseline := some rep.counter }))
  | .con _ => s

/-- Step 3 of R41: a condition that is handed over (R44). -/
def reportCondition (p : Position) (hand : Bool) (rep : Report) (s : State) : State :=
  if hand then
    match p with
    | .pin x => seqCondition x rep.condition s
    | .ret =>
      if rep.condition = 0 then s else raiseReturnFault .returnStation (some rep.condition) s
    | .con _ => s
  else s

/-- An order that has ended with an echo is reported to its owner (R43, R50, R53). -/
def echoEnds (p : Position) (o : Order) (st : EchoState) (s : State) : State :=
  match p, o, st with
  | .pin x, .pin _, .done set => seqDone x set s
  | .pin x, .pin _, .refused reason => seqRefused x reason s
  | .con x, .display i _, .refused _ => serviceConsole x (markConsole x [i] s)
  | .con x, .display _ _, _ => serviceConsole x s
  | .con x, .answer _ _ _, _ => serviceConsole x (s.modStation p fun r => { r with answer := none })
  | _, _, _ => s

/-- Step 4 of R41: the order echo (R43). -/
def reportEcho (p : Position) (rep : Report) (s : State) : State :=
  match rep.echo, (s.station p).slot with
  | some e, some o =>
    if e.tag = o.tag then
      match e.state with
      | .taken => s.modStation p fun r => { r with slot := some { o with taken := true } }
      | st => echoEnds p o.order st (emptySlot p s)
    else s
  | _, _ => s

/-! ### Console requests (R49, R51) -/

/-- A CALL of console `x` (R51, R98). -/
def callDesk (x : Lane) (s : State) : State :=
  let was := s.link.call.get x
  let s := s.modLink fun l => { l with call := l.call.set x true }
  consoleClear x (if was then s else offer (.call x) s)

/-- A request is handed to its owner, who answers with a status (R49). -/
def handRequest (x : Lane) (q : Request) (s : State) : State × Status :=
  if q.kind = 0 then
    if hk : q.slot.toNat < 12 then
      if hg : q.game.toNat < 4 then
        correct (.console x)
          { slot := ⟨q.slot.toNat, hk⟩, game := ⟨q.game.toNat, hg⟩, frame := q.frame.toNat,
            ball := q.ball.toNat, pinfall := q.pinfall.toNat } s
      else (s, .range)
    else (s, .range)
  else if q.kind = 1 then skipBowler x s
  else if q.kind = 2 then (callDesk x s, .done)
  else (s, .range)

/-- Step 5 of R41: the request of a console in READY (R49). -/
def reportRequest (x : Lane) (quiet : Bool) (rep : Report) (s : State) : State :=
  match rep.request with
  | none => s
  | some q =>
    let r := s.station (.con x)
    if r.state = .ready ∧ r.requestTag ≠ some q.tag ∧ r.answer = none ∧ quiet = false then
      let h := handRequest x q (s.modStation (.con x) fun r => { r with requestTag := some q.tag })
      serviceConsole x
        (h.1.modStation (.con x) fun r => { r with answer := some ⟨q.tag, q.kind, h.2⟩ })
    else s

/-- The waiting query of a position completes at its first report from the round that carried the
mark (R48). -/
def completeQuery (p : Position) (s : State) : State :=
  match s.command.slot with
  | some ⟨_, _, _, .query q true _⟩ =>
    if q = p then completeDeferred .done (stationEntry p (s.station p).state s) s else s
  | _ => s

/-- A good report in the open window of its position (R41, steps 1 to 6). The condition is handed
over where R44 says so, and also at a position whose cache is empty though the report does not bring
it into JOINING: R44 then has no cached report to compare with (DESIGN CHOICE, log entry 34). -/
def handleReport (p : Position) (round : Round) (rep : Report) (s : State) : State :=
  let old := s.station p
  let hand := old.state == .absent || old.state == .lost ||
    (match old.cache with
      | some c => c.report.condition != rep.condition
      | none => true)
  let s := s.modLink fun l => { l with round := some { round with reported := true } }
  let s := reportCondition p hand rep (reportCounter p rep (reportState p rep s))
  let s := reportEcho p rep s
  let s := match p with
    | .con x => reportRequest x round.quiet rep s
    | _ => s
  completeQuery p (s.modStation p fun r => { r with cache := some ⟨rep, round.number⟩ })

/-- A good report arrives at position `p`: within its window, which takes one (R38). -/
def arriveReport (p : Position) (rep : Report) (s : State) : State :=
  match s.link.round with
  | some r => if r.position = p ∧ r.reported = false then handleReport p r rep s else s
  | none => s

end Sys2Proof.Machine
end

