-- ==== Sys2Proof/Machine/LineUnit.lean ====
section
/-! DEFINITION. The Line Unit (chapter 4): the sample tick and its filters, the events of the input
lines, stuck lines, the ESTOP latch and the loads of the lines record. -/

namespace Sys2Proof.Machine

/-! ### The sample tick (R60, R61, R163) -/

/-- The time base half a millisecond later (R163). After its last value it is left open. -/
def TimeBase.advance (t : TimeBase) : TimeBase :=
  if t.half then
    { t with half := false
             ms := if t.ms + 1 < 2 ^ 48 then t.ms + 1 else Config.timeBaseAfterLast.toNat }
  else { t with half := true }

/-- A level is accepted (R60, R61): it makes a first acceptance, or an edge by the line's
polarity, whose step waits its turn. -/
def LineState.accept (st : LineState) (polarity v : Level) (now : Nat) : LineState :=
  let kind := match st.accepted with
    | none => .first
    | some _ => if v = polarity then .active else .inactive
  { st with accepted := some v, run := 0, events := st.events ++ [⟨kind, v, now⟩] }

/-- One sample of a line (R60, R61). -/
def LineState.sample (set : LineSetting) (v : Level) (now : Nat) (st : LineState) : LineState :=
  match st.accepted with
  | some a =>
    if v = a then { st with run := 0 }
    else if set.count ≤ st.run + 1 then st.accept set.polarity v now
    else { st with run := st.run + 1 }
  | none =>
    let run := if st.run = 0 ∨ v ≠ st.runLevel then 1 else st.run + 1
    if set.count ≤ run then { st with runLevel := v }.accept set.polarity v now
    else { st with run := run, runLevel := v }

/-- The fixed filter of PIT_WAKE_LINE (R56): count 3, LOW asserted. -/
def wakeSetting : LineSetting := ⟨.low, 3⟩

/-- PIT_WAKE_LINE keeps only the events that are assertions: an accepted assertion is an active
edge (R56). -/
def LineState.sampleWake (v : Level) (now : Nat) (st : LineState) : LineState :=
  let st' := st.sample wakeSetting v now
  { st' with events := st'.events.filter fun e => e.kind = .active }

/-- The seven input lines, in the order of the lines record. -/
def allLines : List InputLine :=
  [.foul .A, .foul .B, .launch .A, .launch .B, .pit .A, .pit .B, .estop]

/-- One sample tick (R60, R163): the time base moves to the tick, and every filter takes its
sample. -/
def sampleAll (v : Samples) (s : State) : State :=
  let s := { s with time := s.time.advance }
  let s := allLines.foldl (fun s l =>
    s.modInput l (LineState.sample (s.command.lines.settings.get l) (v.lines.get l) s.now)) s
  s.modLineUnit fun u => { u with wake := u.wake.sampleWake v.wake s.now }

/-! ### The events of a line (R62) -/

/-- The active polarity of a line (R29). -/
def polarity (l : InputLine) (s : State) : Level := (s.command.lines.settings.get l).polarity

/-- Whether a line is active (R62). -/
def lineActive (l : InputLine) (s : State) : Bool :=
  (s.line.lines.get l).accepted = some (polarity l s)

/-- Whether a line is inactive (R62). -/
def lineInactive (l : InputLine) (s : State) : Bool :=
  (s.line.lines.get l).accepted = some (polarity l s).flip

/-- Take an acceptance of a kind from a line (log entry 4): the one that a sample tick has left
waiting at the head, which is of the kind it was when it was accepted (R62) and, as a first
acceptance, of its level; or, with none waiting, one that the line can make now. Its time comes with
the line after it. -/
def LineState.take (st : LineState) (kind : EdgeKind) (v : Level) (now : Nat) :
    Option (LineState × Nat) :=
  match st.events with
  | e :: rest =>
    if e.kind = kind ∧ (kind = .first → e.level = v) then some ({ st with events := rest }, e.time)
    else none
  | [] =>
    let able : Bool := match kind with
      | .first => st.accepted = none
      | _ => st.accepted = some v.flip
    if able then some ({ st with accepted := some v, run := 0 }, now) else none

/-- The level that an acceptance of a kind brings, by the line's polarity. -/
def edgeLevel (polarity : Level) : EdgeKind → Level
  | .inactive => polarity.flip
  | _ => polarity

/-- Take an edge of line `l`, and go on with its acceptance time; nothing happens where the line
makes no such edge. -/
def onEdge (l : InputLine) (kind : EdgeKind) (k : Nat → State → State) (s : State) : State :=
  match (s.line.lines.get l).take kind (edgeLevel (polarity l s) kind) s.now with
  | some (st, t) => k t (s.modInput l fun _ => st)
  | none => s

/-! ### Stuck lines (R65 to R67) -/

/-- The stuck time of a line in ms (section 4.3). -/
def stuckTime (l : InputLine) (s : State) : Nat :=
  match l with
  | .foul _ => s.command.timing.foulStuck * 1000
  | _ => 5000

/-- Whether the stuck timing of a line is in use (R65): not for ESTOP, and for FOUL_x only while
foul detection of lane x is on. -/
def stuckTimed (l : InputLine) (s : State) : Bool :=
  match l with
  | .estop => false
  | .foul x => s.command.lines.foulOn.get x
  | _ => true

/-- The stuck timer of a line that has become active at time `t` (R65). -/
def startStuck (l : InputLine) (t : Nat) (s : State) : State :=
  if stuckTimed l s ∧ lineActive l s then
    s.modInput l fun st => { st with stuckTimer := some (t + stuckTime l s) }
  else s

/-- A stuck line leaves its stuck state (R67): the flag is cleared, LINE_FAULT is offered, and the
release of PIT_x is handed to its sequencer. -/
def leaveStuck (l : InputLine) (s : State) : State :=
  if (s.line.lines.get l).stuck then
    let s := offer (.lineFault l false) (s.modInput l fun st => { st with stuck := false })
    match l with
    | .pit x => s.modSeq x fun q => { q with pitStuck := false }
    | _ => s
  else s

/-- A line has become inactive, or its stuck timing has gone out of use (R65, R67): the stuck timer
stops, and a stuck line leaves its stuck state. -/
def endStuck (l : InputLine) (s : State) : State :=
  leaveStuck l (s.modInput l fun st => { st with stuckTimer := none })

/-- The stuck timer of a line expires (R66). -/
def lineStucks (l : InputLine) (s : State) : State :=
  if l ≠ .estop ∧ s.due (s.line.lines.get l).stuckTimer then
    let s := s.modInput l fun st => { st with stuckTimer := none, stuck := true }
    let s := offer (.lineFault l true) s
    match l with
    | .pit x => seqFault x .trigger none (s.modSeq x fun q => { q with pitStuck := true })
    | _ => s
  else s

/-! ### The ESTOP latch (R68, R69) -/

/-- The latch is set (R68): set already, nothing changes. The ESTOP notice joins ahead of the FAULT
notices of the lanes, an order that R68 and R33 leave open (DESIGN CHOICE, log entry 35). -/
def setLatch (s : State) : State :=
  if s.line.estop then s
  else
    let s := offer .estop (s.modLineUnit fun u => { u with estop := true })
    freezeTransit (eitherOrder (fun x => seqFault x .estop none) s)

/-- FAULT_CLEAR(ESTOP) (R69). A line whose level is unknown is not inactive (DEDUCED, log entry 27).
FAULT_CLEARED joins the notice queue ahead of the FAULT notices that a standing cause raises in
RECOVER, an order that R69 and R33 leave open (DESIGN CHOICE, log entry 41). -/
def clearLatch (s : State) : State × Status :=
  if s.line.estop ∧ lineInactive .estop s then
    let s := offer (.faultCleared .estop) (s.modLineUnit fun u => { u with estop := false })
    (resumeTransit (eitherOrder estopCleared s), .done)
  else (s, .state)

/-! ### The rows (R61 to R63, R65) -/

/-- A first acceptance (R61). -/
def firstAccepted (l : InputLine) (v : Level) (s : State) : State :=
  match (s.line.lines.get l).take .first v s.now with
  | none => s
  | some (st, t) =>
    let s := s.modInput l fun _ => st
    if l = .estop then if v = polarity l s then setLatch s else s
    else startStuck l t s

/-- An active edge of LAUNCH_x, PIT_x or FOUL_x (R63, R65): its stuck timer starts, the Transit
Monitor is told, and the edge is lane activity for the pit link. -/
def laneEdge (l : InputLine) (transit : Nat → State → State) (s : State) : State :=
  onEdge l .active (fun t s => wakeLink (transit t (startStuck l t s))) s

/-- An inactive edge (R65, R67): the stuck timer stops and a stuck line leaves its stuck state.
Where a load has made the line active since the edge was accepted, the stuck timer is the one
that the load started (R64), and it runs on (DESIGN CHOICE, log entry 4). -/
def inactiveEdge (l : InputLine) (s : State) : State :=
  onEdge l .inactive (fun _ s =>
    if l = .estop then s
    else if lineActive l s ∧ (s.line.lines.get l).events = [] then leaveStuck l s
    else endStuck l s) s

/-- An accepted assertion of PIT_WAKE_LINE (R56). -/
def wakeAsserted (s : State) : State :=
  match s.line.wake.take .active .low s.now with
  | some (st, _) => wakeLink (s.modLineUnit fun u => { u with wake := st })
  | none => s

/-! ### TABLE_LOAD LINES (R64) -/

/-- Whether foul detection of a FOUL line is on in a record; other lines have none. -/
def detection (r : LinesRecord) : InputLine → Bool
  | .foul x => r.foulOn.get x
  | _ => true

/-- The effect on one line of the installed record, given the old one (R64). -/
def lineLoaded (old : LinesRecord) (s : State) (l : InputLine) : State :=
  let turned : Bool := (old.settings.get l).polarity ≠ polarity l s
  let was := detection old l
  let on := detection s.command.lines l
  match l with
  | .estop => if turned ∧ lineActive l s then setLatch s else s
  | _ =>
    if was ∧ on = false then endStuck l s
    else if turned then
      if lineActive l s then startStuck l s.now s
      else if (s.line.lines.get l).accepted = none then s
      else endStuck l s
    else if was = false ∧ on ∧ lineActive l s then startStuck l s.now s
    else s

/-- Install a lines record (R29, R64). The lines are taken in the order of the record, FOUL_A first
and ESTOP last, where R64 says only 'line by line' (DESIGN CHOICE, log entry 33). -/
def installLines (r : LinesRecord) (s : State) : State :=
  let old := s.command.lines
  allLines.foldl (lineLoaded old) { s with command := { s.command with lines := r } }

/-- The Line Unit after a warm reset (R77): the lines record stands in the Command Unit. -/
def LineUnit.warmReset (u : LineUnit) : LineUnit :=
  { u with
    lines := ⟨.initial, .initial, .initial, .initial, .initial, .initial, .initial⟩
    wake := .initial
    estop := false
    powerOverride := none
    motorOverride := none
    foulLamp := .both none }

end Sys2Proof.Machine
end

