-- ==== Sys2Proof/Machine/Operands.lean ====
section
/-! DEFINITION. The arguments of commands and the records of table loads, read from their bytes
(sections 2.7, 10.2 and 10.6). A value outside its codes or its range reads as none, which R20
answers with RANGE. -/

namespace Sys2Proof.Machine

/-! ### Selectors and flags (R184) -/

/-- A lane or cross start. -/
def laneArg (b : Byte) : Option Lane :=
  if b = 0 then some .A else if b = 1 then some .B else none

/-- A clear, practice or force flag, and the action of HOLD and BAND_HOLD. -/
def flagArg (b : Byte) : Option Bool :=
  if b = 0 then some false else if b = 1 then some true else none

/-- A mode. -/
def modeArg (b : Byte) : Option Mode :=
  if b = 0 then some .opened else if b = 1 then some .cross else none

/-- A format. -/
def formatArg (b : Byte) : Option Format :=
  if b = 0 then some .tenPin else if b = 1 then some .nineTap else none

/-- A method. -/
def methodArg (b : Byte) : Option Method :=
  if b = 0 then some .perTime else if b = 1 then some .perGame
  else if b = 2 then some .perBowler else none

/-- The target of a ROSTER_ADD. -/
def targetArg (b : Byte) : Option Target :=
  if b = 0 then some (.lane .A) else if b = 1 then some (.lane .B)
  else if b = 2 then some (.team .one) else if b = 3 then some (.team .two) else none

/-- The lines that carry a desk driver (R73): PAIR_POWER reads as true. -/
def driverArg (b : Byte) : Option Bool :=
  if b = 0 then some true else if b = 1 then some false else none

/-- The value of an OVERRIDE: NONE reads as `some none`. -/
def overrideArg (b : Byte) : Option (Option Bool) :=
  if b = 0 then some (some false) else if b = 1 then some (some true)
  else if b = 2 then some none else none

/-- A polarity. -/
def polarityArg (b : Byte) : Option Level :=
  if b = 0 then some .low else if b = 1 then some .high else none

/-! ### Identifiers (R20) -/

/-- A roster slot, 0..11. -/
def slotArg (b : Byte) : Option Slot :=
  if h : b.toNat < 12 then some ⟨b.toNat, h⟩ else none

/-- A game index, 0..3. -/
def gameArg (b : Byte) : Option (Fin 4) :=
  if h : b.toNat < 4 then some ⟨b.toNat, h⟩ else none

/-- A station position, 0..4. -/
def positionArg (b : Byte) : Option Position :=
  if b = 0 then some (.pin .A) else if b = 1 then some (.pin .B) else if b = 2 then some .ret
  else if b = 3 then some (.con .A) else if b = 4 then some (.con .B) else none

/-- A credit, absent for an open tab (R181). -/
def creditArg (v : BitVec 32) : Option Nat := if v = BitVec.allOnes 32 then none else some v.toNat

/-! ### Clamping -/

/-- A value brought into `low..high`. -/
def clampTo (low high v : Nat) : Nat := max low (min high v)

/-- A two-byte value of a record, by its place among the values. -/
def word16 (bytes : List Byte) (i : Nat) : Nat := beNat ((bytes.drop (2 * i)).take 2)

/-! ### Table records (R184) -/

/-- The ranges of the timing record, in the order of R28's table. -/
def timingRanges : List (Nat × Nat) :=
  [(500, 6000), (1000, 5000), (4000, 30000), (3000, 20000), (5000, 30000), (5000, 60000),
    (200, 3000), (1, 10), (10, 600), (10, 300), (500, 2500), (2, 20), (1, 7), (2, 30)]

/-- The fourteen values of a timing record, clamped. -/
def timingValues (record : List Byte) : List Nat :=
  (List.range 14).map fun i =>
    match timingRanges[i]? with
    | some (low, high) => clampTo low high (word16 record i)
    | none => 0

/-- A timing record of the right length (R28), with whether a value was clamped. -/
def timingArg (record : List Byte) : Option (Timing × Bool) :=
  if record.length = 28 then
    let v := timingValues record
    let g := fun i => v.getD i 0
    some
      ({ settle := g 0, scanTimeout := g 1, cycleTimeout := g 2, flightTimeout := g 3,
         pitTimeout := g 4, trackTimeout := g 5, foulWindow := g 6, foulLamp := g 7,
         idleCutoff := g 8, closeTimeout := g 9, gateDistance := g 10, roundPeriod := g 11,
         missLimit := g 12, foulStuck := g 13 },
        (List.range 14).any fun i => g i ≠ word16 record i)
  else none

/-- One line's two bytes of a lines record: polarity and clamped filter count. -/
def settingArg (record : List Byte) (i : Nat) : Option LineSetting :=
  (polarityArg (record.getD (2 * i) 0)).map fun p =>
    ⟨p, clampTo 2 7 (record.getD (2 * i + 1) 0).toNat⟩

/-- A lines record of the right length and with its selectors inside their lists (R29), with
whether a filter count was clamped. -/
def linesArg (record : List Byte) : Option (LinesRecord × Bool) :=
  let enables := record.getD 14 0
  if record.length = 15 ∧ enables.toNat < 4 then
    match settingArg record 0, settingArg record 1, settingArg record 2, settingArg record 3,
      settingArg record 4, settingArg record 5, settingArg record 6 with
    | some a, some b, some c, some d, some e, some f, some g =>
      some (⟨⟨a, b, c, d, e, f, g⟩, ⟨enables.getLsbD 0, enables.getLsbD 1⟩⟩,
        (List.range 7).any fun i =>
          let n := (record.getD (2 * i + 1) 0).toNat
          n < 2 || 7 < n)
    | _, _, _, _, _, _, _ => none
  else none

/-- A group list of the right length with its ids in 1..15 (R30), as the set it installs. -/
def groupsArg (record : List Byte) : Option (BitVec 16) :=
  match record with
  | n :: ids =>
    if ids.length = n.toNat ∧ n.toNat ≤ 15 ∧ ids.all (fun i => 1 ≤ i.toNat && i.toNat ≤ 15) then
      some (ids.foldl (fun g i => g ||| (1#16 <<< i.toNat)) 0#16)
    else none
  | [] => none

/-- The entries of a rate record. -/
def bandArgs (n : Nat) (bytes : List Byte) : List Band :=
  (List.range n).map fun i =>
    ⟨word16 bytes (4 * i), word16 bytes (4 * i + 1), word16 bytes (4 * i + 2),
      word16 bytes (4 * i + 3)⟩

/-- Whether start minutes strictly rise. -/
def startsRise : List Band → Bool
  | a :: b :: rest => a.start < b.start && startsRise (b :: rest)
  | _ => true

/-- A rate record that the checks of R165 accept, with whether its header was clamped. -/
def ratesArg (record : List Byte) : Option (RateTable × Bool) :=
  match record with
  | n :: minimum :: increment :: entries =>
    let bands := bandArgs n.toNat entries
    if entries.length = 8 * n.toNat ∧ 1 ≤ n.toNat ∧ n.toNat ≤ 6 ∧
        bands.all (fun b => b.start ≤ 1439) ∧ startsRise bands then
      some (⟨min 240 minimum.toNat, clampTo 1 60 increment.toNat, bands⟩,
        240 < minimum.toNat || increment.toNat < 1 || 60 < increment.toNat)
    else none
  | _ => none

end Sys2Proof.Machine
end

