-- ==== Sys2Proof/Machine/Lanes.lean ====
section
/-! DEFINITION. What the desk's commands do to a lane and to the part, once their arguments are
known: rates and bands (section 9.2), opening and closing (sections 9.4 and 9.6), credit, clears,
overrides and the warm reset (R32). -/

namespace Sys2Proof.Machine

/-! ### Rates and bands (R165, R166) -/

/-- Install a rate table: a held band index is clamped to it in the same event. -/
def installRates (t : RateTable) (s : State) : State :=
  { s with account :=
      { s.account with rates := t, bandHold := s.account.bandHold.map (clampBand t.bands) } }

/-- Set the band hold to an index, or release it (R166). -/
def holdBand (index : Option Nat) (s : State) : State × Status :=
  let put := fun v => { s with account := { s.account with bandHold := v } }
  match index with
  | none => (put none, .done)
  | some i =>
    let held := clampBand s.account.rates.bands i
    (put (some held), if held = i then .done else .doneClamped)

/-! ### Opening (R167) -/

/-- Step 1 of an opening: the account's fields. -/
def openAccount (x : Lane) (method : Method) (practice : Bool) (credit : Option Nat) (warn : Nat)
    (s : State) : State :=
  setAccountState x .opened <| s.modAcct x fun a =>
    { Account.initial with
      method := method, practice := practice, credit := credit, warn := warn,
      openedAt := stampedMinute s, last := a.last }

/-- LANE_OPEN with its selectors inside their lists (R167). -/
def openLane (x : Lane) (method : Method) (practice : Bool) (credit : Option Nat) (warn : Nat)
    (s : State) : State × Status :=
  if (s.acct x).state ≠ .closed then (s, .state)
  else if practice ∧ method ≠ .perTime then (s, .range)
  else if s.account.rates.bands = [] then (s, .noRates)
  else
    let s := openAccount x method practice (credit.map (min moneyLimit)) (min moneyLimit warn) s
    let s := if method = .perTime then chargeMinute x s else s
    let s := rosterOpening x practice (seqOpening x practice (wakeLink s))
    let clamped := moneyLimit < credit.getD 0 || moneyLimit < warn
    (s, if clamped then .doneClamped else .done)

/-! ### Closing (R174) -/

/-- Whether a game is in progress within the cover of lane `x`'s close (R141). -/
def playInCover (x : Lane) (s : State) : Bool := (closeCover x s).any fun k => gameInProgress k s

/-- The checks of LANE_CLOSE (R174). -/
def closeCheck (x : Lane) (force : Bool) (s : State) : Status :=
  if (s.acct x).state = .closed ∨ (s.acct x).state = .closing then .state
  else if force = false ∧ playInCover x s then .inPlay
  else .done

/-- A forced close abandons the games in progress (R174). It is made before the ordered steps of
R174, while the account is still OPEN or LOCKED, a place that R174 leaves open (DESIGN CHOICE, log
entry 37). -/
def forceClose (x : Lane) (s : State) : State :=
  if playInCover x s then abandonGames x (s.modAcct x fun a => { a with forced := true }) else s

/-- The effects of a LANE_CLOSE that is taken (R174, steps 1 to 4). -/
def beginClose (x : Lane) (s : State) : State :=
  let locked : Bool := (s.acct x).state = .locked
  let s := s.modAcct x fun a => { a with pending := none }
  let s := addHold x .closing (setAccountState x .closing s)
  let s := if locked then removeHold x .credit s else s
  let s := s.modAcct x fun a =>
    { a with closeTimer := some (s.now + s.command.timing.closeTimeout * 1000) }
  checkClear x (s.modLane x fun l => { l with closeWatch := true })

/-- The close timer of lane `x` has expired (R175): what is left is written off, and the close
completes. -/
def closeExpires (x : Lane) (s : State) : State :=
  if s.due (s.acct x).closeTimer then
    let n := laneBalls x s.transit
    let s := s.modAcct x fun a => { a with writeOffs := decide (1 ≤ n) }
    completeClose x (closeWriteOff x s)
  else s

/-! ### Credit (R171) -/

/-- CREDIT_ADD on a lane (R171). -/
def addCredit (x : Lane) (amount : BitVec 32) (s : State) : State × Status :=
  match (s.acct x).credit with
  | none => (s, .state)
  | some c =>
    if (s.acct x).state = .closed then (s, .state)
    else if amount = BitVec.allOnes 32 then (s, .range)
    else
      let sum := c + amount.toNat
      let s := s.modAcct x fun a => { a with credit := some (min moneyLimit sum) }
      let s :=
        if (s.acct x).state = .locked then
          if (s.acct x).method = .perTime then
            if (s.acct x).meter < min moneyLimit sum * 60 then unlock x .creditAdded s else s
          else retryPending x .creditAdded s
        else s
      (warnTest x s, if moneyLimit < sum then .doneClamped else .done)

/-! ### Clears and overrides (R97, R118, R73) -/

/-- FAULT_CLEAR of lane `x` (R97). -/
def clearLaneFault (x : Lane) (s : State) : State × Status :=
  if (s.seq x).state = .fault then (clearLane x s, .done) else (s, .state)

/-- Whether the return station is LOST or its cached condition is not OK (R118). -/
def returnUnfit (s : State) : Bool :=
  (s.station .ret).state == .lost ||
    match (s.station .ret).cache with
    | some c => c.report.condition != 0
    | none => false

/-- FAULT_CLEAR(RETURN) (R118). -/
def clearReturn (s : State) : State × Status :=
  if s.transit.fault = none ∨ returnUnfit s then (s, .state) else (clearReturnFault s, .done)

/-- OVERRIDE of PAIR_POWER (`power`) or RETURN_MOTOR (R73). -/
def setOverride (power : Bool) (v : Option Bool) (s : State) : State :=
  s.modLineUnit fun u =>
    if power then { u with powerOverride := v } else { u with motorOverride := v }

/-! ### The warm reset (R32) -/

/-- The Loop Port's and the Command Unit's share (R18, R32). -/
def resetQueues (s : State) : State :=
  setSlot none <| s.modLoop fun l =>
    { l with up := true, timer := some (s.now + 50), replies := [], notices := [],
             noticesLost := false, counters := .zero }

/-- What a warm reset leaves invalid or empty in the pit link, whatever the other blocks' shares of
it have written or marked (R59, R32). -/
def invalidateDisplays (s : State) : State :=
  s.modLink fun l =>
    { l with dirty := .both [], stations := l.stations.map fun r => { r with cell := none } }

/-- A warm reset of the part (R32): the queues, the Line Unit, the transit records, the pit link,
then the sequencers (R102) and the withdrawals that this sets off (R137). The cells and the dirty
lists are left as R59 says, after all of these (log entry 17). -/
def warmResetPart (s : State) : State :=
  let s := resetQueues s
  let s := { s with line := s.line.warmReset, transit := .initial }
  let s := (restartLink true s).modLink fun l => { l with dirty := .both [], call := .both false }
  let s := warmResetSeq .B (warmResetSeq .A s)
  invalidateDisplays (checkPendingWithdraw .B (checkPendingWithdraw .A s))

end Sys2Proof.Machine
end

