-- ==== Sys2Proof/Machine/CommandUnit.lean ====
section
/-! DEFINITION. The Command Unit (chapter 2): what becomes of a command that is handed to it, the
act of each command, and the act that a command body asks for. -/

namespace Sys2Proof.Machine

/-! ### Taking a command (R19 to R24) -/

/-- The codes of the read commands (section 2.1). -/
def isRead (code : Byte) : Bool := 1 ≤ code.toNat && code.toNat ≤ 8

/-- The first decision on a command (R19): ignored, dropped, answered BUSY, or taken. In REPEATER
no command is handed over (R2). -/
def handCommand (h : CommandHead) (code : Byte) (act : State → State) (s : State) : State :=
  if s.repeater then s
  else if h.group ∧ isRead code then s
  else if h.group = false ∧ freeReplies s = 0 then
    count (fun c => { c with dropped := bump c.dropped }) s
  else if s.command.slot.isSome ∧ code ≠ 1 then answer h.group code h.sequence .busy [] s
  else act s

/-- A command that ends at once with a status and no contents (R20, R21). A group command's
COMMAND_REFUSED (R24) is offered after the notices that its owner has offered in the same event,
such as those of a DONE_CLAMPED load or CREDIT_ADD: R24 and R33 leave this order open (DESIGN
CHOICE, log entry 48). -/
def conclude (h : CommandHead) (code : Byte) (r : State × Status) : State :=
  answer h.group code h.sequence r.2 [] r.1

/-- An immediate command (R21): executed and answered as one event. -/
def immediate (h : CommandHead) (code : Byte) (act : State → State × Status) (s : State) : State :=
  handCommand h code (fun s => conclude h code (act s)) s

/-- A read command (R26): answered DONE with contents, or with RANGE where it names nothing. -/
def readOut (h : CommandHead) (code : Byte) (contents : State → Option (List Byte)) (s : State) :
    State :=
  handCommand h code (fun s =>
    match contents s with
    | some c => answer h.group code h.sequence .done c s
    | none => answer h.group code h.sequence .range [] s) s

/-- A deferred command (R22): refused by its checks it is answered at once, and otherwise it holds
the slot while its owner goes on. -/
def defer (h : CommandHead) (code : Byte) (check : State → Status) (work : DeferredWork)
    (go : State → State) (s : State) : State :=
  handCommand h code (fun s =>
    match check s with
    | .done => go (setSlot (some ⟨code, h.sequence, h.group, work⟩) s)
    | st => answer h.group code h.sequence st [] s) s

/-- A command with an argument outside its list or range, or of the wrong length (R20). -/
def outOfRange (h : CommandHead) (code : Byte) (s : State) : State :=
  immediate h code (fun s => (s, .range)) s

/-- An immediate command over an argument that may be outside its list or range (R20). -/
def immediateOn {α : Type} (h : CommandHead) (code : Byte) (arg : Option α)
    (act : α → State → State × Status) (s : State) : State :=
  immediate h code (fun s =>
    match arg with
    | some a => act a s
    | none => (s, .range)) s

/-! ### The acts, in the order of the table -/

/-- UNKNOWN_COMMAND (R20). -/
def takeUnknown (h : CommandHead) (code : Byte) (s : State) : State :=
  immediate h code (fun s => (s, .unknown)) s

/-- STATUS_READ (R25): the counters are cleared after the block is built. -/
def takeStatusRead (h : CommandHead) (clear : Byte) (s : State) : State :=
  handCommand h 1 (fun s =>
    match flagArg clear with
    | none => answer h.group 1 h.sequence .range [] s
    | some c =>
      let s' := answer h.group 1 h.sequence .done (statusBlock s) s
      if c then count (fun _ => .zero) s' else s') s

/-- ACCOUNT_READ (R26). -/
def takeAccountRead (h : CommandHead) (lane : Byte) (s : State) : State :=
  readOut h 2 (fun s => (laneArg lane).map fun x => accountRecord x s) s

/-- SETTLEMENT_READ (R26). -/
def takeSettlementRead (h : CommandHead) (lane : Byte) (s : State) : State :=
  readOut h 3 (fun s => (laneArg lane).map fun x => settlementContents x s) s

/-- ROSTER_READ (R26). -/
def takeRosterRead (h : CommandHead) (s : State) : State :=
  readOut h 4 (fun s => some (rosterContents s)) s

/-- SCORE_READ (R160). -/
def takeScoreRead (h : CommandHead) (slot game : Byte) (s : State) : State :=
  readOut h 5 (fun s =>
    (slotArg slot).bind fun k => (gameArg game).bind fun g => scoreContents k g s) s

/-- STATION_READ (R48). -/
def takeStationRead (h : CommandHead) (position : Byte) (s : State) : State :=
  readOut h 6 (fun s =>
    (positionArg position).map fun p => stationEntry p (s.station p).state s) s

/-- TRANSIT_READ (R123). -/
def takeTransitRead (h : CommandHead) (s : State) : State :=
  readOut h 7 (fun s => some (transitContents s)) s

/-- A STATION_QUERY that holds the slot (R48): on a QUIET link it completes at once. -/
def beginQuery (p : Position) (s : State) : State :=
  if s.link.state = .quiet then completeDeferred .done (stationEntry p .quiet s) s
  else s.modStation p fun r => { r with queryMark := true }

/-- STATION_QUERY (R48). -/
def takeStationQuery (h : CommandHead) (position : Byte) (s : State) : State :=
  match positionArg position with
  | some p => defer h 8 (fun _ => .done) (.query p false 0) (beginQuery p) s
  | none => outOfRange h 8 s

/-- The status of a load that may have clamped a value (R27). -/
def loaded (clamped : Bool) : Status := if clamped then .doneClamped else .done

/-- TABLE_LOAD RATES (R165). -/
def takeRates (h : CommandHead) (record : List Byte) (s : State) : State :=
  immediateOn h 9 (ratesArg record) (fun r s => (installRates r.1 s, loaded r.2)) s

/-- TABLE_LOAD TIMING (R28). -/
def takeTiming (h : CommandHead) (record : List Byte) (s : State) : State :=
  immediateOn h 9 (timingArg record)
    (fun r s => ({ s with command := { s.command with timing := r.1 } }, loaded r.2)) s

/-- TABLE_LOAD LINES (R29, R64). -/
def takeLines (h : CommandHead) (record : List Byte) (s : State) : State :=
  immediateOn h 9 (linesArg record) (fun r s => (installLines r.1 s, loaded r.2)) s

/-- TABLE_LOAD GROUPS (R30). -/
def takeGroups (h : CommandHead) (record : List Byte) (s : State) : State :=
  immediateOn h 9 (groupsArg record)
    (fun g s => (s.modLoop fun l => { l with groups := g }, .done)) s

/-- SESSION_SET (R125). -/
def takeSessionSet (h : CommandHead) (mode format limit start : Byte) (s : State) : State :=
  immediate h 10 (fun s =>
    match modeArg mode, formatArg format, laneArg start with
    | some m, some f, some x => setSession m f limit.toNat x s
    | _, _, _ => (s, .range)) s

/-- SESSION_END (R126). -/
def takeSessionEnd (h : CommandHead) (s : State) : State := immediate h 11 endSession s

/-- CERTIFY (R159). -/
def takeCertify (h : CommandHead) (s : State) : State :=
  immediate h 12 (fun s => ({ s with score := { s.score with certified := true } }, .done)) s

/-- LANE_OPEN (R167). -/
def takeLaneOpen (h : CommandHead) (lane method practice : Byte) (credit warn : BitVec 32)
    (s : State) : State :=
  immediate h 13 (fun s =>
    match laneArg lane, methodArg method, flagArg practice with
    | some x, some m, some p => openLane x m p (creditArg credit) warn.toNat s
    | _, _, _ => (s, .range)) s

/-- LANE_CLOSE (R174). Under force the games are abandoned before the account enters CLOSING
(DESIGN CHOICE, log entry 37). -/
def takeLaneClose (h : CommandHead) (lane force : Byte) (s : State) : State :=
  match laneArg lane, flagArg force with
  | some x, some f =>
    defer h 14 (closeCheck x f) (.closing x)
      (fun s => beginClose x (if f then forceClose x s else s)) s
  | _, _ => outOfRange h 14 s

/-- CREDIT_ADD (R171). -/
def takeCreditAdd (h : CommandHead) (lane : Byte) (amount : BitVec 32) (s : State) : State :=
  immediateOn h 15 (laneArg lane) (fun x => addCredit x amount) s

/-- ROSTER_ADD (R127). -/
def takeRosterAdd (h : CommandHead) (slot target : Byte) (s : State) : State :=
  immediate h 16 (fun s =>
    match slotArg slot, targetArg target with
    | some k, some t => addBowler k t s
    | _, _ => (s, .range)) s

/-- ROSTER_MOVE (R135). -/
def takeRosterMove (h : CommandHead) (slot lane : Byte) (s : State) : State :=
  immediate h 17 (fun s =>
    match slotArg slot, laneArg lane with
    | some k, some x => moveBowler k x s
    | _, _ => (s, .range)) s

/-- ROSTER_WITHDRAW (R136). -/
def takeRosterWithdraw (h : CommandHead) (slot : Byte) (s : State) : State :=
  immediateOn h 18 (slotArg slot) withdrawBowler s

/-- SKIP (R134). -/
def takeSkip (h : CommandHead) (lane : Byte) (s : State) : State :=
  immediateOn h 19 (laneArg lane) skipBowler s

/-- SCORE_CORRECT (R155). -/
def takeScoreCorrect (h : CommandHead) (slot game frame ball pinfall : Byte) (s : State) : State :=
  immediate h 20 (fun s =>
    match slotArg slot, gameArg game with
    | some k, some g => correct .desk ⟨k, g, frame.toNat, ball.toNat, pinfall.toNat⟩ s
    | _, _ => (s, .range)) s

/-- FAULT_CLEAR of a lane (R97). -/
def takeClearLane (h : CommandHead) (x : Lane) (s : State) : State :=
  immediate h 21 (clearLaneFault x) s

/-- FAULT_CLEAR(RETURN) (R118). -/
def takeClearReturn (h : CommandHead) (s : State) : State := immediate h 21 clearReturn s

/-- FAULT_CLEAR(ESTOP) (R69). -/
def takeClearEstop (h : CommandHead) (s : State) : State := immediate h 21 clearLatch s

/-- CALL_ACK (R51). -/
def takeCallAck (h : CommandHead) (lane : Byte) (s : State) : State :=
  immediateOn h 22 (laneArg lane)
    (fun x s => (s.modLink fun l => { l with call := l.call.set x false }, .done)) s

/-- OVERRIDE (R73). -/
def takeOverride (h : CommandHead) (line value : Byte) (s : State) : State :=
  immediate h 23 (fun s =>
    match driverArg line, overrideArg value with
    | some power, some v => (setOverride power v s, .done)
    | _, _ => (s, .range)) s

/-- BAND_HOLD (R166): the index is not read at a release. -/
def takeBandHold (h : CommandHead) (action index : Byte) (s : State) : State :=
  immediateOn h 24 (flagArg action)
    (fun set s => holdBand (if set then some index.toNat else none) s) s

/-- The check of PIT_RESTART (R58). -/
def restartCheck (s : State) : Status := if pairAtRest s then .done else .state

/-- PIT_RESTART, warm or cold (R58). -/
def takeRestart (h : CommandHead) (cold : Bool) (s : State) : State :=
  defer h 25 restartCheck .restarting (restartLink cold) s

/-- PIT_QUIET (R55). -/
def takePitQuiet (h : CommandHead) (s : State) : State := immediate h 26 quietLink s

/-- PIT_WAKE (R56): it completes at the event of its wake, or at once. -/
def takePitWake (h : CommandHead) (s : State) : State :=
  defer h 27 (fun _ => .done) .waking (fun s => completeDeferred .done [] (wakeLink s)) s

/-- A RESET that holds the slot (R31): as a group command it is carried out at once, and otherwise
its DONE reply takes the held place, behind the replies that stand ahead. -/
def beginReset (h : CommandHead) (s : State) : State :=
  if h.group then warmResetPart s else addReply 28 h.sequence .done [] s

/-- RESET (R31). -/
def takeReset (h : CommandHead) (s : State) : State :=
  defer h 28 (fun _ => .done) (.resetting s.loop.replies.length) (beginReset h) s

/-- HOLD (R79). -/
def takeHold (h : CommandHead) (lane action : Byte) (s : State) : State :=
  immediate h 29 (fun s =>
    match laneArg lane, flagArg action with
    | some x, some v => (setHold x .desk v s, .done)
    | _, _ => (s, .range)) s

/-! ### A command body (R182, R184) -/

/-- Four bytes as one value. -/
def word32 (a b c d : Byte) : BitVec 32 := BitVec.ofNat 32 (beNat [a, b, c, d])

/-- FAULT_CLEAR by its target byte. -/
def takeFaultClear (h : CommandHead) (target : Byte) (s : State) : State :=
  if target = 0 then takeClearLane h .A s
  else if target = 1 then takeClearLane h .B s
  else if target = 2 then takeClearReturn h s
  else if target = 3 then takeClearEstop h s
  else outOfRange h 21 s

/-- TABLE_LOAD by its table code. -/
def takeTableLoad (h : CommandHead) (table : Byte) (record : List Byte) (s : State) : State :=
  if table = 1 then takeRates h record s
  else if table = 2 then takeTiming h record s
  else if table = 3 then takeLines h record s
  else if table = 4 then takeGroups h record s
  else outOfRange h 9 s

/-- PIT_RESTART by its kind. -/
def takePitRestart (h : CommandHead) (kind : Byte) (s : State) : State :=
  match flagArg kind with
  | some cold => takeRestart h cold s
  | none => outOfRange h 25 s

/-- A command with a known code, by its arguments; the wrong number of them is RANGE. -/
def takeKnown (h : CommandHead) (code : Byte) (args : List Byte) (s : State) : State :=
  match code.toNat, args with
  | 1, [c] => takeStatusRead h c s
  | 2, [x] => takeAccountRead h x s
  | 3, [x] => takeSettlementRead h x s
  | 4, [] => takeRosterRead h s
  | 5, [k, g] => takeScoreRead h k g s
  | 6, [p] => takeStationRead h p s
  | 7, [] => takeTransitRead h s
  | 8, [p] => takeStationQuery h p s
  | 9, t :: record => takeTableLoad h t record s
  | 10, [m, f, l, x] => takeSessionSet h m f l x s
  | 11, [] => takeSessionEnd h s
  | 12, [] => takeCertify h s
  | 13, [x, m, p, c3, c2, c1, c0, w3, w2, w1, w0] =>
    takeLaneOpen h x m p (word32 c3 c2 c1 c0) (word32 w3 w2 w1 w0) s
  | 14, [x, f] => takeLaneClose h x f s
  | 15, [x, a3, a2, a1, a0] => takeCreditAdd h x (word32 a3 a2 a1 a0) s
  | 16, [k, t] => takeRosterAdd h k t s
  | 17, [k, x] => takeRosterMove h k x s
  | 18, [k] => takeRosterWithdraw h k s
  | 19, [x] => takeSkip h x s
  | 20, [k, g, f, b, n] => takeScoreCorrect h k g f b n s
  | 21, [t] => takeFaultClear h t s
  | 22, [x] => takeCallAck h x s
  | 23, [l, v] => takeOverride h l v s
  | 24, [a, i] => takeBandHold h a i s
  | 25, [k] => takePitRestart h k s
  | 26, [] => takePitQuiet h s
  | 27, [] => takePitWake h s
  | 28, [] => takeReset h s
  | 29, [x, a] => takeHold h x a s
  | _, _ => outOfRange h code s

/-- A command body is handed to the Command Unit: an empty body is taken as code 0 (R184). -/
def takeBody (h : CommandHead) (body : List Byte) (s : State) : State :=
  match body with
  | [] => takeUnknown h 0 s
  | code :: args =>
    if 1 ≤ code.toNat ∧ code.toNat ≤ 29 then takeKnown h code args s else takeUnknown h code s

end Sys2Proof.Machine
end

