-- ==== Sys2Proof/Machine/LoopPort.lean ====
section
/-! DEFINITION. The Loop Port (chapter 1): the check, the handling of frames by their kind, blanks,
broadcast topics, beacons and the loop state. -/

namespace Sys2Proof.Machine

/-! ### Frames and their check (sections 10.1, R180) -/

/-- The bytes that the check covers, 0 to 61. -/
def frameBytes (f : Frame) : List Byte :=
  [f.kind, f.spanFirst, f.spanLast, f.origin, f.sequence, f.flags, f.bodyLength, f.spare] ++
    f.body.toList

/-- The check register after one bit: the polynomial's low 16 terms are x^12 + x^5 + 1. -/
def crcBit (r : BitVec 16) (b : Bool) : BitVec 16 :=
  if (r.getLsbD 15) != b then (r <<< 1) ^^^ 0x1021#16 else r <<< 1

/-- The check register after one byte, bit 7 first. -/
def crcByte (r : BitVec 16) (b : Byte) : BitVec 16 :=
  (List.range 8).foldl (fun r i => crcBit r (b.getLsbD (7 - i))) r

/-- The check of a list of bytes (R180). -/
def crc16 (bytes : List Byte) : BitVec 16 := bytes.foldl crcByte 0xFFFF#16

/-- A frame with its check computed anew. -/
def checked (f : Frame) : Frame := { f with check := crc16 (frameBytes f) }

/-- A body of 54 bytes: the given ones, then zeros (R13). -/
def bodyOf (bytes : List Byte) : Vector Byte 54 := Vector.ofFn fun i => bytes.getD i.val 0

/-- The part's own pair number as a byte. -/
def ownPair (s : State) : Byte := BitVec.ofNat 8 s.loop.pairNumber.toNat

/-- A fresh BLANK (R3). -/
def freshBlank (s : State) : Frame :=
  checked
    { kind := 0, spanFirst := 0, spanLast := 0, origin := ownPair s, sequence := 0, flags := 0,
      bodyLength := 0, spare := 0, body := bodyOf [], check := 0 }

/-- The frame that carries a reply (R13). -/
def replyFrame (r : Reply) (s : State) : Frame :=
  checked
    { kind := 2, spanFirst := 0, spanLast := 0, origin := ownPair s, sequence := r.sequence,
      flags := 0, bodyLength := BitVec.ofNat 8 r.body.length, spare := 0, body := bodyOf r.body,
      check := 0 }

/-- The frame that carries a notice (R13). -/
def noticeFrame (n : Notice) (s : State) : Frame :=
  checked
    { kind := 3, spanFirst := 0, spanLast := 0, origin := ownPair s, sequence := 0,
      flags := flagByte [s.loop.noticesLost], bodyLength := BitVec.ofNat 8 n.bytes.length,
      spare := 0, body := bodyOf n.bytes, check := 0 }

/-! ### Sending (R11, R14, R31) -/

/-- A frame leaves at LOOP_OUT. -/
def sendFrame (f : Frame) (s : State) : State := s.modLoop fun l => { l with out := some f }

/-- The departure of a reply is reported to the Command Unit (R14, R31): one fewer stands ahead of
a RESET's own reply, and at the departure of that reply the warm reset is carried out. -/
def replyLeft (s : State) : State :=
  match s.command.slot with
  | some ⟨code, sequence, group, .resetting ahead⟩ =>
    match ahead with
    | 0 => warmResetPart s
    | n + 1 => setSlot (some ⟨code, sequence, group, .resetting n⟩) s
  | _ => s

/-- A free blank is filled as it is sent on (R11): with the reply at the head, otherwise with the
notice at the head, otherwise as the blank it is. -/
def sendBlank (blank : Frame) (s : State) : State :=
  match s.loop.replies, s.loop.notices with
  | r :: rest, _ =>
    let s' := sendFrame (replyFrame r s) (s.modLoop fun l => { l with replies := rest })
    replyLeft (count (fun c => { c with repliesSent := bump c.repliesSent }) s')
  | [], n :: rest =>
    let s' := sendFrame (noticeFrame n s)
      (s.modLoop fun l => { l with notices := rest, noticesLost := false })
    count (fun c => { c with noticesSent := bump c.noticesSent }) s'
  | [], [] => sendFrame blank s

/-! ### The loop state (R15, R16) -/

/-- A good frame arrives (R15, R16): the loop comes UP, with LOOP_RESTORED, if it was DOWN, and the
loop timer is restarted. -/
def goodFrame (s : State) : State :=
  if s.loop.up then s.modLoop fun l => { l with timer := some (s.now + 50) }
  else
    offer (.loopRestored (min 65535 ((s.now - s.loop.downTime) / 1000)))
      (s.modLoop fun l => { l with up := true, timer := some (s.now + 50) })

/-- The loop timer expires (R15): the down time is the moment of the expiry. -/
def loopGoesDown (s : State) : State :=
  match s.loop.timer with
  | some e =>
    if s.repeater = false ∧ s.loop.up ∧ e ≤ s.now then
      count (fun c => { c with loopDowns := bump c.loopDowns })
        (s.modLoop fun l => { l with up := false, timer := none, downTime := e })
    else s
  | none => s

/-! ### Broadcast topics (R7) -/

/-- BAND_HOLD (R7, R166): a clamp is no refusal. -/
def topicBandHold (index : Option Nat) (s : State) : State := (holdBand index s).1

/-- CENTRE_HOLD (R7). -/
def topicCentreHold (set : Bool) (s : State) : State :=
  eitherOrder (fun x => setHold x .centre set) s

/-- QUIET (R7, R55). -/
def topicQuiet (s : State) : State :=
  match quietLink s with
  | (s', .done) => s'
  | (s', st) => offer (.commandRefused true 3 0 st) s'

/-- The act of a topic with its argument bytes, or none where the broadcast is malformed (R4). -/
def topicAct (topic a b : Byte) : Option (State → State) :=
  if topic = 1 then
    (flagArg a).map fun set => topicBandHold (if set then some b.toNat else none)
  else if topic = 2 then
    if b = 0 then (flagArg a).map topicCentreHold else none
  else if topic = 3 then if a = 0 ∧ b = 0 then some topicQuiet else none
  else if topic = 4 then if a = 0 ∧ b = 0 then some wakeLink else none
  else none

/-- Whether the part is in a broadcast's group (R6). -/
def inGroup (group : Byte) (s : State) : Bool :=
  group = 0 || (group.toNat ≤ 15 && s.loop.groups.getLsbD group.toNat)

/-! ### Beacons (R9, R164) -/

/-- A beacon's centre time is delivered (R9, R164). -/
def deliverBeacon (minute second : Nat) (s : State) : State :=
  count (fun c => { c with beacons := bump c.beacons })
    { s with account :=
        { s.account with
          centre := some ⟨minute * 60 + second, s.now, false⟩
          staleTimer := some (s.now + 300000) } }

/-- The centre time of a beacon body, or none where the beacon is malformed (R4). -/
def beaconTime (body : List Byte) : Option (Nat × Nat) :=
  match body with
  | [a, b, c] =>
    let minute := a.toNat * 256 + b.toNat
    if minute ≤ 1439 ∧ c.toNat ≤ 59 then some (minute, c.toNat) else none
  | _ => none

/-! ### The handling of a good frame by its kind (R4 to R10) -/

/-- The body of a frame: its first body-length bytes. -/
def frameBody (f : Frame) : List Byte := f.body.toList.take f.bodyLength.toNat

/-- The part's pair number lies in the span (section 1.4). -/
def inSpan (f : Frame) (s : State) : Bool :=
  f.spanFirst.toNat ≤ s.loop.pairNumber.toNat && s.loop.pairNumber.toNat ≤ f.spanLast.toNat

/-- The malformed counter rises (R4). -/
def countMalformed (s : State) : State :=
  count (fun c => { c with malformed := bump c.malformed }) s

/-- The first cases of R4: such a frame is repeated unchanged. -/
def malformed (f : Frame) : Bool :=
  5 < f.kind.toNat ||
    (f.kind = 1 || f.kind = 4 || f.kind = 5) &&
      (f.spanLast.toNat < f.spanFirst.toNat || 63 < f.spanFirst.toNat || 63 < f.spanLast.toNat ||
        54 < f.bodyLength.toNat)

/-- What a frame makes the part do, and the frame that goes on (R5, R6, R9): at span last a fresh
BLANK, which may be filled before or after what the frame makes the part do (a free choice, R11),
but before it where that is a warm reset (`resets`): the frame that passes through the part then is
sent as it was made before the reset (R18). -/
def passOn (f : Frame) (resets : Bool) (act : State → State) (s : State) : State :=
  if f.spanLast.toNat = s.loop.pairNumber.toNat then
    let s' := { s with freeChoices := s.freeChoices + 1 }
    if !resets && Config.actsBeforeBlank s.freeChoices then sendBlank (freshBlank s) (act s')
    else act (sendBlank (freshBlank s) s')
  else sendFrame f (act s)

/-- Whether a COMMAND handed over now carries the warm reset out at once: a group RESET that
finds the command slot free (R31). -/
def resetsAtOnce (h : CommandHead) (body : List Byte) (s : State) : Bool :=
  h.group && body == [28] && s.command.slot.isNone

/-- A COMMAND (R5). -/
def commandFrame (f : Frame) (s : State) : State :=
  let h : CommandHead := ⟨f.spanFirst, f.spanLast, f.sequence⟩
  passOn f (resetsAtOnce h (frameBody f) s)
    (fun s => if inSpan f s then takeBody h (frameBody f) s else s) s

/-- A BROADCAST (R6, R7). -/
def broadcastFrame (f : Frame) (s : State) : State :=
  match frameBody f with
  | [group, topic, a, b] =>
    match topicAct topic a b with
    | some act => passOn f false (fun s => if inSpan f s ∧ inGroup group s then act s else s) s
    | none => passOn f false countMalformed s
  | _ => passOn f false countMalformed s

/-- A BEACON (R9). -/
def beaconFrame (f : Frame) (s : State) : State :=
  match beaconTime (frameBody f) with
  | some (minute, second) =>
    passOn f false (fun s => if inSpan f s then deliverBeacon minute second s else s) s
  | none => passOn f false countMalformed s

/-- A good frame is handled by its kind (R3 to R10). -/
def handleFrame (f : Frame) (s : State) : State :=
  if malformed f then sendFrame f (countMalformed s)
  else if f.kind = 0 then sendBlank f s
  else if f.kind = 1 then commandFrame f s
  else if f.kind = 4 then beaconFrame f s
  else if f.kind = 5 then broadcastFrame f s
  else sendFrame f s

/-- A frame arrives at LOOP_IN (R2, R3). -/
def frameArrives (f : Frame) (s : State) : State :=
  if s.repeater then sendFrame f s
  else if f.check = crc16 (frameBytes f) then handleFrame f (goodFrame s)
  else
    sendBlank (freshBlank s)
      (count (fun c => { c with checkErrors := bump c.checkErrors }) s)

end Sys2Proof.Machine
end

