-- ==== Sys2Proof/Machine/DeskRows.lean ====
section
/-! DEFINITION. The rows of the lane loop and of the desk: power-on, arriving frames, broadcast
topics, the loop timer, and the desk's commands as they are handed to the Command Unit. -/

namespace Sys2Proof.Machine

/-- The outcome of a command. -/
abbrev Result := Host.Outcome State Fault Refusal

/-- Every command ends in a next state, with the end of the event after it (R49, R53, R70). -/
def done (s : State) : Result := .next (finish s)

/-- In REPEATER the Loop Port hands nothing on (R2). -/
def unlessRepeater (f : State → State) (s : State) : State := if s.repeater then s else f s

/-- POWER_ON (R1): every block takes its power-on values. The free choices go on (log entry 5). -/
def execPowerOn (strap : BitVec 6) (s : State) : Result :=
  done { State.powerOn strap with pending := s.pending, freeChoices := s.freeChoices }

/-- LOOP_FRAME_ARRIVAL (R2, R3). -/
def execLoopFrameArrival (frame : Frame) (s : State) : Result := done (frameArrives frame s)

/-- BAND_HOLD broadcast topic (R7, R166). -/
def execBroadcastBandHold (index : Option Byte) (s : State) : Result :=
  done (unlessRepeater (topicBandHold (index.map (·.toNat))) s)

/-- CENTRE_HOLD broadcast topic (R7). -/
def execCentreHold (set : Bool) (s : State) : Result :=
  done (unlessRepeater (topicCentreHold set) s)

/-- QUIET broadcast topic (R7, R55). -/
def execBroadcastQuiet (s : State) : Result := done (unlessRepeater topicQuiet s)

/-- WAKE broadcast topic (R7, R57). -/
def execBroadcastWake (s : State) : Result := done (unlessRepeater wakeLink s)

/-- LOOP_DOWN (R15). -/
def execLoopDown (s : State) : Result := done (loopGoesDown s)

/-! ### The desk's commands -/

/-- UNKNOWN_COMMAND (R20). -/
def execUnknownCommand (head : CommandHead) (code : Byte) (s : State) : Result :=
  done (takeUnknown head code s)

/-- STATUS_READ (R25). -/
def execStatusRead (head : CommandHead) (clear : Byte) (s : State) : Result :=
  done (takeStatusRead head clear s)

/-- ACCOUNT_READ (R26). -/
def execAccountRead (head : CommandHead) (lane : Byte) (s : State) : Result :=
  done (takeAccountRead head lane s)

/-- SETTLEMENT_READ (R26). -/
def execSettlementRead (head : CommandHead) (lane : Byte) (s : State) : Result :=
  done (takeSettlementRead head lane s)

/-- ROSTER_READ (R26). -/
def execRosterRead (head : CommandHead) (s : State) : Result := done (takeRosterRead head s)

/-- SCORE_READ (R160). -/
def execScoreRead (head : CommandHead) (slot game : Byte) (s : State) : Result :=
  done (takeScoreRead head slot game s)

/-- STATION_READ (R48). -/
def execStationRead (head : CommandHead) (position : Byte) (s : State) : Result :=
  done (takeStationRead head position s)

/-- TRANSIT_READ (R123). -/
def execTransitRead (head : CommandHead) (s : State) : Result := done (takeTransitRead head s)

/-- STATION_QUERY (R48). -/
def execStationQuery (head : CommandHead) (position : Byte) (s : State) : Result :=
  done (takeStationQuery head position s)

/-- TABLE_LOAD RATES (R165). -/
def execTableLoadRates (head : CommandHead) (record : List Byte) (s : State) : Result :=
  done (takeRates head record s)

/-- TABLE_LOAD TIMING (R28). -/
def execTableLoadTiming (head : CommandHead) (record : List Byte) (s : State) : Result :=
  done (takeTiming head record s)

/-- TABLE_LOAD LINES (R29, R64). -/
def execTableLoadLines (head : CommandHead) (record : List Byte) (s : State) : Result :=
  done (takeLines head record s)

/-- TABLE_LOAD GROUPS (R30). -/
def execTableLoadGroups (head : CommandHead) (record : List Byte) (s : State) : Result :=
  done (takeGroups head record s)

/-- SESSION_SET (R125). -/
def execSessionSet (head : CommandHead) (mode format limit crossStart : Byte) (s : State) :
    Result :=
  done (takeSessionSet head mode format limit crossStart s)

/-- SESSION_END (R126). -/
def execSessionEnd (head : CommandHead) (s : State) : Result := done (takeSessionEnd head s)

/-- CERTIFY (R159). -/
def execCertify (head : CommandHead) (s : State) : Result := done (takeCertify head s)

/-- LANE_OPEN (R167). -/
def execLaneOpen (head : CommandHead) (lane method practice : Byte) (credit warn : BitVec 32) (s : State) :
    Result :=
  done (takeLaneOpen head lane method practice credit warn s)

/-- LANE_CLOSE (R174). -/
def execLaneClose (head : CommandHead) (lane force : Byte) (s : State) : Result :=
  done (takeLaneClose head lane force s)

/-- CREDIT_ADD (R171). -/
def execCreditAdd (head : CommandHead) (lane : Byte) (amount : BitVec 32) (s : State) : Result :=
  done (takeCreditAdd head lane amount s)

/-- ROSTER_ADD (R127). -/
def execRosterAdd (head : CommandHead) (slot target : Byte) (s : State) : Result :=
  done (takeRosterAdd head slot target s)

/-- ROSTER_MOVE (R135). -/
def execRosterMove (head : CommandHead) (slot lane : Byte) (s : State) : Result :=
  done (takeRosterMove head slot lane s)

/-- ROSTER_WITHDRAW (R136). -/
def execRosterWithdraw (head : CommandHead) (slot : Byte) (s : State) : Result :=
  done (takeRosterWithdraw head slot s)

/-- SKIP (R134). -/
def execSkip (head : CommandHead) (lane : Byte) (s : State) : Result := done (takeSkip head lane s)

/-- SCORE_CORRECT (R155). -/
def execScoreCorrect (head : CommandHead) (slot game frame ball pinfall : Byte) (s : State) :
    Result :=
  done (takeScoreCorrect head slot game frame ball pinfall s)

/-- HOLD (R79). -/
def execHold (head : CommandHead) (lane action : Byte) (s : State) : Result :=
  done (takeHold head lane action s)

/-- FAULT_CLEAR of lane A or B (R97). -/
def execFaultClearLane (head : CommandHead) (lane : Lane) (s : State) : Result :=
  done (takeClearLane head lane s)

/-- FAULT_CLEAR(RETURN) (R118). -/
def execFaultClearReturn (head : CommandHead) (s : State) : Result := done (takeClearReturn head s)

/-- FAULT_CLEAR(ESTOP) (R69). -/
def execFaultClearEstop (head : CommandHead) (s : State) : Result := done (takeClearEstop head s)

/-- CALL_ACK (R51). -/
def execCallAck (head : CommandHead) (lane : Byte) (s : State) : Result :=
  done (takeCallAck head lane s)

/-- OVERRIDE (R73). -/
def execOverride (head : CommandHead) (line value : Byte) (s : State) : Result :=
  done (takeOverride head line value s)

/-- BAND_HOLD (R166). -/
def execBandHold (head : CommandHead) (action index : Byte) (s : State) : Result :=
  done (takeBandHold head action index s)

/-- PIT_RESTART warm (R58). -/
def execPitRestartWarm (head : CommandHead) (s : State) : Result := done (takeRestart head false s)

/-- PIT_RESTART cold (R58). -/
def execPitRestartCold (head : CommandHead) (s : State) : Result := done (takeRestart head true s)

/-- PIT_QUIET (R55). -/
def execPitQuiet (head : CommandHead) (s : State) : Result := done (takePitQuiet head s)

/-- PIT_WAKE (R56). -/
def execPitWake (head : CommandHead) (s : State) : Result := done (takePitWake head s)

/-- RESET (R31). -/
def execReset (head : CommandHead) (s : State) : Result := done (takeReset head s)

end Sys2Proof.Machine
end

