-- ==== Sys2Proof/Machine/EventRows.lean ====
section
/-! DEFINITION. The rows of the events inside the part and on its lines: the warm reset, the pit
link's rounds, windows and reports, the input lines, and the timers. A timer's row does its work
once the timer runs and its expiry has come, and nothing otherwise (log entry 3). -/

namespace Sys2Proof.Machine

/-- The round timer expires while RUNNING (R36). -/
def roundStarts (s : State) : State :=
  if s.link.state = .running ∧ s.due s.link.roundTimer ∧ s.link.round = none then startRound s
  else s

/-- The quiet minimum ends while WAKING (R57). -/
def wakeMinimumEnds (s : State) : State :=
  if s.link.state = .waking ∧ quietMinimumOver s then startRound s else s

/-- A foul edge is handed to the Transit Monitor while foul detection of the lane is on (R63), by
the enable in force at the row, where a load has come between it and the sample tick (DESIGN
CHOICE, log entry 4). -/
def foulDetected (x : Lane) (t : Nat) (s : State) : State :=
  if s.command.lines.foulOn.get x then foulBall x t s else s

/-- The foul lamp timer of lane `x` expires (R74). -/
def foulLampExpires (x : Lane) (s : State) : State :=
  if s.due (s.line.foulLamp.get x) then
    s.modLineUnit fun u => { u with foulLamp := u.foulLamp.set x none }
  else s

/-- The pending foul of lane `x` expires (R110). -/
def pendingFoulExpires (x : Lane) (s : State) : State :=
  if s.transitDue (s.laneTransit x).pendingFoul then
    s.modLane x fun l => { l with pendingFoul := .stopped }
  else s

/-- The settle timer of lane `x` expires (R90). -/
def settleExpires (x : Lane) (s : State) : State :=
  if (s.seq x).state = .settle ∧ s.due (s.seq x).settleTimer then
    issueOrder x .scan (enterState x .scan (s.modSeq x fun q => { q with settleTimer := none }))
  else s

/-- The order timer of sequencer `x` expires (R83). -/
def orderExpires (x : Lane) (s : State) : State :=
  if s.due (s.seq x).orderTimer then
    match (s.seq x).order with
    | some ⟨.scan, _⟩ => seqFault x .scanTimeout none s
    | some _ => seqFault x .cycleTimeout none s
    | none => s
  else s

/-- The flight timer of lane `x` expires (R105). Its BALL_LOST comes before the SETTLEMENT of a
close that the write-off completes (R120), an order that the spec leaves open (DESIGN CHOICE, log
entry 50). -/
def flightExpires (x : Lane) (s : State) : State :=
  if s.transitDue (s.laneTransit x).flightTimer then
    checkClear x (restartFlight x (loseOldest x s))
  else s

/-- The pit timer of lane `x` expires (R113). -/
def pitExpires (x : Lane) (s : State) : State :=
  if s.transitDue (s.laneTransit x).pitTimer then
    seqFault x .pitJam none (s.modLane x fun l => { l with pitTimer := .stopped })
  else s

/-- The track timer expires (R114). -/
def trackExpires (s : State) : State :=
  if s.transitDue s.transit.trackTimer then
    raiseReturnFault .trackJam none (s.modTransit fun t => { t with trackTimer := .stopped })
  else s

/-- The idle timer expires (R121). -/
def idleExpires (s : State) : State :=
  if s.transitDue s.transit.idleTimer then
    s.modTransit fun t => { t with idleTimer := .stopped }
  else s

/-- A billing tick reaches the account of lane `x` (R168). -/
def billAccount (x : Lane) (s : State) : State :=
  if (s.acct x).state = .closed then s
  else if (s.seq x).state = .fault ∨ s.line.estop then
    s.modAcct x fun a => { a with stoppageMinutes := bump a.stoppageMinutes }
  else if (s.acct x).method = .perTime then
    if (s.acct x).state = .opened then chargeMinute x s else s
  else if (s.acct x).state = .locked then retryPending x .chargeMade s
  else s

/-- The billing tick (R163, R168). -/
def billingTicks (s : State) : State :=
  if s.time.nextTick ≤ s.now then
    eitherOrder billAccount { s with time := { s.time with nextTick := s.time.nextTick + 60000 } }
  else s

/-- The staleness timer expires (R164). -/
def centreGoesStale (s : State) : State :=
  if s.due s.account.staleTimer then
    { s with account :=
        { s.account with
          staleTimer := none
          centre := s.account.centre.map fun c => { c with stale := true } } }
  else s

/-! ### The rows -/

/-- WARM_RESET (R32). -/
def execWarmReset (s : State) : Result := done (unlessRepeater warmResetPart s)

/-- ROUND_START (R36). -/
def execRoundStart (s : State) : Result := done (roundStarts s)

/-- WAKE_MINIMUM (R57). -/
def execWakeMinimum (s : State) : Result := done (wakeMinimumEnds s)

/-- REPORT_ARRIVAL (R41). -/
def execReportArrival (position : Position) (report : Report) (s : State) : Result :=
  done (arriveReport position report s)

/-- REPORT_WINDOW_CLOSE (R38). -/
def execReportWindowClose (position : Position) (s : State) : Result :=
  done (closeWindow position s)

/-- WAKE_LINE (R56). -/
def execWakeLine (s : State) : Result := done (wakeAsserted s)

/-- FIRST_ACCEPTANCE (R61). -/
def execFirstAcceptance (line : InputLine) (level : Level) (s : State) : Result :=
  done (firstAccepted line level s)

/-- LAUNCH (R63, R104). -/
def execLaunch (lane : Lane) (s : State) : Result :=
  done (laneEdge (.launch lane) (launchBall lane) s)

/-- PIT_ARRIVAL (R63, R106). -/
def execPitArrival (lane : Lane) (s : State) : Result :=
  done (laneEdge (.pit lane) (pitBall lane) s)

/-- FOUL_EDGE (R63, R109). -/
def execFoulEdge (lane : Lane) (s : State) : Result :=
  done (laneEdge (.foul lane) (foulDetected lane) s)

/-- FOUL_INDICATION_EXPIRY (R74). -/
def execFoulIndicationExpiry (lane : Lane) (s : State) : Result := done (foulLampExpires lane s)

/-- PENDING_FOUL_EXPIRY (R110). -/
def execPendingFoulExpiry (lane : Lane) (s : State) : Result := done (pendingFoulExpires lane s)

/-- INACTIVE_EDGE (R65, R67). -/
def execInactiveEdge (line : InputLine) (s : State) : Result := done (inactiveEdge line s)

/-- LINE_STUCK (R66). -/
def execLineStuck (line : InputLine) (s : State) : Result := done (lineStucks line s)

/-- ESTOP_ACTIVE_EDGE (R68). -/
def execEstopActiveEdge (s : State) : Result := done (onEdge .estop .active (fun _ => setLatch) s)

/-- SETTLE_EXPIRY (R90). -/
def execSettleExpiry (lane : Lane) (s : State) : Result := done (settleExpires lane s)

/-- ORDER_TIMEOUT (R83). -/
def execOrderTimeout (lane : Lane) (s : State) : Result := done (orderExpires lane s)

/-- FLIGHT_TIMEOUT (R105). -/
def execFlightTimeout (lane : Lane) (s : State) : Result := done (flightExpires lane s)

/-- PIT_TIMEOUT (R113). -/
def execPitTimeout (lane : Lane) (s : State) : Result := done (pitExpires lane s)

/-- TRACK_TIMEOUT (R114, R117). -/
def execTrackTimeout (s : State) : Result := done (trackExpires s)

/-- IDLE_EXPIRY (R121). -/
def execIdleExpiry (s : State) : Result := done (idleExpires s)

/-- CLOSE_TIMEOUT (R175). -/
def execCloseTimeout (lane : Lane) (s : State) : Result := done (closeExpires lane s)

/-- BILLING_TICK (R163, R168). -/
def execBillingTick (s : State) : Result := done (billingTicks s)

/-- CENTRE_TIME_STALE (R164). -/
def execCentreTimeStale (s : State) : Result := done (centreGoesStale s)

/-- SAMPLE_TICK (R60, R163). -/
def execSampleTick (samples : Samples) (s : State) : Result := done (sampleAll samples s)

end Sys2Proof.Machine
end

