-- ==== Sys2Proof/Machine/Dispatch.lean ====
section
/-! DEFINITION. The dispatch of a command to its meaning, one arm for each row of the table. -/

namespace Sys2Proof.Machine

def exec (i : Instr) (s : State) : Host.Outcome State Fault Refusal :=
  match i with
  | .powerOn strap => Sys2Proof.Machine.execPowerOn strap s
  | .loopFrameArrival frame => Sys2Proof.Machine.execLoopFrameArrival frame s
  | .broadcastBandHold index => Sys2Proof.Machine.execBroadcastBandHold index s
  | .centreHold set => Sys2Proof.Machine.execCentreHold set s
  | .broadcastQuiet => Sys2Proof.Machine.execBroadcastQuiet s
  | .broadcastWake => Sys2Proof.Machine.execBroadcastWake s
  | .loopDown => Sys2Proof.Machine.execLoopDown s
  | .unknownCommand head code => Sys2Proof.Machine.execUnknownCommand head code s
  | .statusRead head clear => Sys2Proof.Machine.execStatusRead head clear s
  | .accountRead head lane => Sys2Proof.Machine.execAccountRead head lane s
  | .settlementRead head lane => Sys2Proof.Machine.execSettlementRead head lane s
  | .rosterRead head => Sys2Proof.Machine.execRosterRead head s
  | .scoreRead head slot game => Sys2Proof.Machine.execScoreRead head slot game s
  | .stationRead head position => Sys2Proof.Machine.execStationRead head position s
  | .transitRead head => Sys2Proof.Machine.execTransitRead head s
  | .stationQuery head position => Sys2Proof.Machine.execStationQuery head position s
  | .tableLoadRates head record => Sys2Proof.Machine.execTableLoadRates head record s
  | .tableLoadTiming head record => Sys2Proof.Machine.execTableLoadTiming head record s
  | .tableLoadLines head record => Sys2Proof.Machine.execTableLoadLines head record s
  | .tableLoadGroups head record => Sys2Proof.Machine.execTableLoadGroups head record s
  | .sessionSet head mode format limit crossStart => Sys2Proof.Machine.execSessionSet head mode format limit crossStart s
  | .sessionEnd head => Sys2Proof.Machine.execSessionEnd head s
  | .certify head => Sys2Proof.Machine.execCertify head s
  | .laneOpen head lane method practice credit warn => Sys2Proof.Machine.execLaneOpen head lane method practice credit warn s
  | .laneClose head lane force => Sys2Proof.Machine.execLaneClose head lane force s
  | .creditAdd head lane amount => Sys2Proof.Machine.execCreditAdd head lane amount s
  | .rosterAdd head slot target => Sys2Proof.Machine.execRosterAdd head slot target s
  | .rosterMove head slot lane => Sys2Proof.Machine.execRosterMove head slot lane s
  | .rosterWithdraw head slot => Sys2Proof.Machine.execRosterWithdraw head slot s
  | .skip head lane => Sys2Proof.Machine.execSkip head lane s
  | .scoreCorrect head slot game frame ball pinfall => Sys2Proof.Machine.execScoreCorrect head slot game frame ball pinfall s
  | .hold head lane action => Sys2Proof.Machine.execHold head lane action s
  | .faultClearLane head lane => Sys2Proof.Machine.execFaultClearLane head lane s
  | .faultClearReturn head => Sys2Proof.Machine.execFaultClearReturn head s
  | .faultClearEstop head => Sys2Proof.Machine.execFaultClearEstop head s
  | .callAck head lane => Sys2Proof.Machine.execCallAck head lane s
  | .override head line value => Sys2Proof.Machine.execOverride head line value s
  | .bandHold head action index => Sys2Proof.Machine.execBandHold head action index s
  | .pitRestartWarm head => Sys2Proof.Machine.execPitRestartWarm head s
  | .pitRestartCold head => Sys2Proof.Machine.execPitRestartCold head s
  | .pitQuiet head => Sys2Proof.Machine.execPitQuiet head s
  | .pitWake head => Sys2Proof.Machine.execPitWake head s
  | .reset head => Sys2Proof.Machine.execReset head s
  | .warmReset => Sys2Proof.Machine.execWarmReset s
  | .roundStart => Sys2Proof.Machine.execRoundStart s
  | .wakeMinimum => Sys2Proof.Machine.execWakeMinimum s
  | .reportArrival position report => Sys2Proof.Machine.execReportArrival position report s
  | .reportWindowClose position => Sys2Proof.Machine.execReportWindowClose position s
  | .wakeLine => Sys2Proof.Machine.execWakeLine s
  | .firstAcceptance line level => Sys2Proof.Machine.execFirstAcceptance line level s
  | .launch lane => Sys2Proof.Machine.execLaunch lane s
  | .pitArrival lane => Sys2Proof.Machine.execPitArrival lane s
  | .foulEdge lane => Sys2Proof.Machine.execFoulEdge lane s
  | .foulIndicationExpiry lane => Sys2Proof.Machine.execFoulIndicationExpiry lane s
  | .pendingFoulExpiry lane => Sys2Proof.Machine.execPendingFoulExpiry lane s
  | .inactiveEdge line => Sys2Proof.Machine.execInactiveEdge line s
  | .lineStuck line => Sys2Proof.Machine.execLineStuck line s
  | .estopActiveEdge => Sys2Proof.Machine.execEstopActiveEdge s
  | .settleExpiry lane => Sys2Proof.Machine.execSettleExpiry lane s
  | .orderTimeout lane => Sys2Proof.Machine.execOrderTimeout lane s
  | .flightTimeout lane => Sys2Proof.Machine.execFlightTimeout lane s
  | .pitTimeout lane => Sys2Proof.Machine.execPitTimeout lane s
  | .trackTimeout => Sys2Proof.Machine.execTrackTimeout s
  | .idleExpiry => Sys2Proof.Machine.execIdleExpiry s
  | .closeTimeout lane => Sys2Proof.Machine.execCloseTimeout lane s
  | .billingTick => Sys2Proof.Machine.execBillingTick s
  | .centreTimeStale => Sys2Proof.Machine.execCentreTimeStale s
  | .sampleTick samples => Sys2Proof.Machine.execSampleTick samples s

end Sys2Proof.Machine
end

