-- ==== Sys2Proof/WellFormed.lean ====
section
/-! DEFINITION. The checks of a command as it is written: what its operands must be for it to be a
command that the loop, a station or a line can give the part. -/

namespace Sys2Proof

/-- A head that a COMMAND frame can carry: its span is well formed (R4). -/
def CommandHead.wf (h : CommandHead) : Bool :=
  h.spanFirst.toNat ≤ h.spanLast.toNat && h.spanLast.toNat ≤ 63

/-- The code of an unknown command: 0, or 30 and above (section 10.3). -/
def unknownCode (code : Byte) : Bool := code = 0 || 30 ≤ code.toNat

/-- A table record that fits a body of 54 bytes behind the command code and the table code. -/
def recordFits (record : List Byte) : Bool := record.length ≤ 52

/-- The fields of a report that its position carries (R38): a pinsetter an echo and a counter, the
return a counter and an occupancy, a console an echo and a request. A field that a position does
not carry is blank. -/
def Report.wf (p : Position) (r : Report) : Bool :=
  match p with
  | .pin _ => r.occupancy = 0 && r.request.isNone
  | .ret => r.echo.isNone && r.request.isNone
  | .con _ => r.counter = 0 && r.occupancy = 0

/-- A command is well formed. -/
def Instr.wf : Instr → Bool
  | .powerOn _ => true
  | .loopFrameArrival _ => true
  | .broadcastBandHold _ => true
  | .centreHold _ => true
  | .broadcastQuiet => true
  | .broadcastWake => true
  | .loopDown => true
  | .unknownCommand h code => h.wf && unknownCode code
  | .statusRead h _ => h.wf
  | .accountRead h _ => h.wf
  | .settlementRead h _ => h.wf
  | .rosterRead h => h.wf
  | .scoreRead h _ _ => h.wf
  | .stationRead h _ => h.wf
  | .transitRead h => h.wf
  | .stationQuery h _ => h.wf
  | .tableLoadRates h record => h.wf && recordFits record
  | .tableLoadTiming h record => h.wf && recordFits record
  | .tableLoadLines h record => h.wf && recordFits record
  | .tableLoadGroups h record => h.wf && recordFits record
  | .sessionSet h _ _ _ _ => h.wf
  | .sessionEnd h => h.wf
  | .certify h => h.wf
  | .laneOpen h _ _ _ _ _ => h.wf
  | .laneClose h _ _ => h.wf
  | .creditAdd h _ _ => h.wf
  | .rosterAdd h _ _ => h.wf
  | .rosterMove h _ _ => h.wf
  | .rosterWithdraw h _ => h.wf
  | .skip h _ => h.wf
  | .scoreCorrect h _ _ _ _ _ => h.wf
  | .hold h _ _ => h.wf
  | .faultClearLane h _ => h.wf
  | .faultClearReturn h => h.wf
  | .faultClearEstop h => h.wf
  | .callAck h _ => h.wf
  | .override h _ _ => h.wf
  | .bandHold h _ _ => h.wf
  | .pitRestartWarm h => h.wf
  | .pitRestartCold h => h.wf
  | .pitQuiet h => h.wf
  | .pitWake h => h.wf
  | .reset h => h.wf
  | .warmReset => true
  | .roundStart => true
  | .wakeMinimum => true
  | .reportArrival p r => r.wf p
  | .reportWindowClose _ => true
  | .wakeLine => true
  | .firstAcceptance _ _ => true
  | .launch _ => true
  | .pitArrival _ => true
  | .foulEdge _ => true
  | .foulIndicationExpiry _ => true
  | .pendingFoulExpiry _ => true
  | .inactiveEdge _ => true
  | .lineStuck line => decide (line ≠ .estop)
  | .estopActiveEdge => true
  | .settleExpiry _ => true
  | .orderTimeout _ => true
  | .flightTimeout _ => true
  | .pitTimeout _ => true
  | .trackTimeout => true
  | .idleExpiry => true
  | .closeTimeout _ => true
  | .billingTick => true
  | .centreTimeStale => true
  | .sampleTick _ => true

/-- The head and the code of a desk command (section 10.3); the other rows are not desk commands. -/
def Instr.desk : Instr → Option (CommandHead × Byte)
  | .unknownCommand h code => some (h, code)
  | .statusRead h _ => some (h, 1)
  | .accountRead h _ => some (h, 2)
  | .settlementRead h _ => some (h, 3)
  | .rosterRead h => some (h, 4)
  | .scoreRead h _ _ => some (h, 5)
  | .stationRead h _ => some (h, 6)
  | .transitRead h => some (h, 7)
  | .stationQuery h _ => some (h, 8)
  | .tableLoadRates h _ => some (h, 9)
  | .tableLoadTiming h _ => some (h, 9)
  | .tableLoadLines h _ => some (h, 9)
  | .tableLoadGroups h _ => some (h, 9)
  | .sessionSet h _ _ _ _ => some (h, 10)
  | .sessionEnd h => some (h, 11)
  | .certify h => some (h, 12)
  | .laneOpen h _ _ _ _ _ => some (h, 13)
  | .laneClose h _ _ => some (h, 14)
  | .creditAdd h _ _ => some (h, 15)
  | .rosterAdd h _ _ => some (h, 16)
  | .rosterMove h _ _ => some (h, 17)
  | .rosterWithdraw h _ => some (h, 18)
  | .skip h _ => some (h, 19)
  | .scoreCorrect h _ _ _ _ _ => some (h, 20)
  | .hold h _ _ => some (h, 29)
  | .faultClearLane h _ => some (h, 21)
  | .faultClearReturn h => some (h, 21)
  | .faultClearEstop h => some (h, 21)
  | .callAck h _ => some (h, 22)
  | .override h _ _ => some (h, 23)
  | .bandHold h _ _ => some (h, 24)
  | .pitRestartWarm h => some (h, 25)
  | .pitRestartCold h => some (h, 25)
  | .pitQuiet h => some (h, 26)
  | .pitWake h => some (h, 27)
  | .reset h => some (h, 28)
  | .powerOn _ => none
  | .loopFrameArrival _ => none
  | .broadcastBandHold _ => none
  | .centreHold _ => none
  | .broadcastQuiet => none
  | .broadcastWake => none
  | .loopDown => none
  | .warmReset => none
  | .roundStart => none
  | .wakeMinimum => none
  | .reportArrival _ _ => none
  | .reportWindowClose _ => none
  | .wakeLine => none
  | .firstAcceptance _ _ => none
  | .launch _ => none
  | .pitArrival _ => none
  | .foulEdge _ => none
  | .foulIndicationExpiry _ => none
  | .pendingFoulExpiry _ => none
  | .inactiveEdge _ => none
  | .lineStuck _ => none
  | .estopActiveEdge => none
  | .settleExpiry _ => none
  | .orderTimeout _ => none
  | .flightTimeout _ => none
  | .pitTimeout _ => none
  | .trackTimeout => none
  | .idleExpiry => none
  | .closeTimeout _ => none
  | .billingTick => none
  | .centreTimeStale => none
  | .sampleTick _ => none

end Sys2Proof
end

