-- ==== Sys2Proof/Safety.lean ====
section
/-! DEFINITION. What counts as a safe state: the promises that the manual makes of every state, in
the terms that the statements use. -/

namespace Sys2Proof.Machine

/-- The reply queue never holds more than its places, the held one counted, and the notice queue
never more than 16 (R12, R33). -/
def State.QueuesFit (s : State) : Prop :=
  s.loop.replies.length + heldPlaces s ≤ 4 ∧ s.loop.notices.length ≤ 16

/-- Every output line stands at the value of its highest driver (R70). -/
def State.OutputsStand (s : State) : Prop := s.line.outputs = arbitrate s

/-- Both lane accounts are CLOSED. -/
def State.BothClosed (s : State) : Prop :=
  (s.acct .A).state = .closed ∧ (s.acct .B).state = .closed

/-- The link is QUIET only while both accounts are CLOSED and no quiet round is pending; so is a
pending quiet round that no wake waits on; and a quiet round in progress is pending (R55). -/
def State.QuietClosed (s : State) : Prop :=
  (s.link.state = .quiet → s.BothClosed ∧ s.link.quietPending = false) ∧
    (s.link.quietPending = true → s.link.wakeHeld = false → s.BothClosed) ∧
    ∀ r, s.link.round = some r → r.quiet = true → s.link.quietPending = true

/-- The balls of the part's records: in flight, in the pits and on the track (R122). -/
def State.ballsHeld (s : State) : Nat :=
  (s.laneTransit .A).inFlight.length + (s.laneTransit .B).inFlight.length +
    (s.laneTransit .A).pitHold.length + (s.laneTransit .B).pitHold.length +
    s.transit.track.length

/-- The balance of R122, with all counts taken modulo 4,294,967,296. -/
def State.BallsBalance (s : State) : Prop :=
  s.transit.seen + s.transit.inferred =
    BitVec.ofNat 32 s.ballsHeld + s.transit.matched + s.transit.writeOffs

/-- The entries and the reservations of the return track fit its eight places (R115). -/
def State.TrackFits (s : State) : Prop :=
  s.transit.track.length + (s.laneTransit .A).reservation + (s.laneTransit .B).reservation ≤ 8

/-- The head of the arbiter's waiter list cannot be granted: a return fault stands, or the free
places are fewer than its count (R115, R116). -/
def State.HeadWaits (s : State) : Prop :=
  ∀ w rest, s.transit.waiters = w :: rest →
    s.transit.fault ≠ none ∨ freePlaces s.transit < w.count

/-- A meter is at most its credit, and the credit at most 9,999,999; on an open tab the meter is at
most its limit (R168, R169, R171). -/
def Account.MeterFits (a : Account) : Prop :=
  match a.credit with
  | some c => c ≤ moneyLimit ∧ a.meter ≤ c * 60
  | none => a.meter ≤ meterLimit

/-- A game as the play makes it: at most ten frames, the tenth not ended (R151); no ball that
opens a frame is a spare (R145); and each bonus wait is of an earlier frame that a strike or a
second ball has ended, with a ball still to come (R149). -/
def Bowler.Plays (b : Bowler) : Prop :=
  currentFrame b.current ≤ 10 ∧
    (∀ f ∈ b.current, ∀ a, f.balls.head? = some a → a.marks.spare = false) ∧
    ∀ w ∈ b.bonuses, 1 ≤ w.needed ∧ 1 ≤ w.frame ∧ w.frame < currentFrame b.current ∧
      ∃ f, b.current[w.frame - 1]? = some f ∧
        (2 ≤ f.balls.length ∨ ∃ a, f.balls = [a] ∧ a.marks.strike = true)

/-- Every bowler's current game is one that the play makes. -/
def State.GamesPlay (s : State) : Prop := ∀ k b, s.bowler k = some b → b.Plays

/-- Both meters fit. -/
def State.MetersFit (s : State) : Prop := (s.acct .A).MeterFits ∧ (s.acct .B).MeterFits

/-- A lane in READY has no hold reason and no park to make, and a lane in HELD has a hold reason
and no park to make (R79, R80). -/
def Sequencer.RestsRight (q : Sequencer) : Prop :=
  (q.state = .ready → q.holds = .empty ∧ q.parkPending = false) ∧
    (q.state = .held → q.holds ≠ .empty ∧ q.parkPending = false)

/-- Both lanes rest right. -/
def State.LanesRestRight (s : State) : Prop := (s.seq .A).RestsRight ∧ (s.seq .B).RestsRight

/-- A valid standing-state cell shows what its lane's state calls for (R45, R78): the guard is UP in
READY alone and the deck light OFF in PARKED alone, and the banner is that of R45's list. -/
def State.CellsShow (x : Lane) (s : State) : Prop :=
  ((s.station (.pin x)).cell = none ∨ (s.station (.pin x)).cell = some (s.seq x).state.standing) ∧
    ((s.station (.con x)).cell = none ∨ (s.station (.con x)).cell = some (.con (banner x s)))

/-- An individual command that R19 lets through to its checks: outside REPEATER, with a free place
for the reply and the command slot free. -/
def State.Takes (s : State) (h : CommandHead) : Prop :=
  s.repeater = false ∧ h.group = false ∧ 0 < freeReplies s ∧ s.command.slot = none

/-- Line `l` has an acceptance of a kind to give: `st` is the line after it and `t` its
acceptance time. A sample tick has left it waiting at the head of the line's events; or none
waits, and the line can make it now, to the level `v` (R61, R62; log entry 4). -/
def State.Gives (s : State) (l : InputLine) (kind : EdgeKind) (v : Level) (st : LineState)
    (t : Nat) : Prop :=
  let line := s.line.lines.get l
  (∃ w rest, line.events = ⟨kind, w, t⟩ :: rest ∧ (kind = .first → w = v) ∧
    st = { line with events := rest }) ∨
  (line.events = [] ∧ line.accepted = (if kind = .first then none else some v.flip) ∧ t = s.now ∧
    st = { line with accepted := some v, run := 0 })

/-- The state with line `l` as an acceptance of time `t` leaves it: `st`, and its stuck timer
started at that time where the line is active (R65); ESTOP has no stuck timer, and FOUL_x none
while its detection is off. -/
def State.risen (s : State) (l : InputLine) (st : LineState) (t : Nat) : State :=
  s.modInput l fun _ =>
    { st with
      stuckTimer :=
        if stuckTimed l s = true ∧ st.accepted = some (polarity l s) then some (t + stuckTime l s)
        else st.stuckTimer }

/-- A report from a position in READY that shows again what the part has of it: its counter is the
baseline and its condition the cached one (R44, R46). -/
def State.Settled (s : State) (p : Position) (rep : Report) : Prop :=
  (s.station p).state = .ready ∧ (s.station p).rejoin = false ∧
    (isConsole p = true ∨ (s.station p).baseline = some rep.counter) ∧
    (s.station p).cache.map (·.report.condition) = some rep.condition

/-- No UP bowler has a withdrawal pending (R137). -/
def State.NoneLeaves (s : State) : Prop :=
  ∀ x k e, upBowler x s = some k → s.entry k = some e → e.pendingWithdraw = false

/-- The command slot is free, or a LANE_CLOSE holds it. -/
def State.OnlyCloses (s : State) : Prop :=
  ∀ d, s.command.slot = some d → d.work = .closing .A ∨ d.work = .closing .B

/-- Slot `k`, were he UP, would be at no charge point (R139): his game holds a ball or is
charged. -/
def State.NoCharge (s : State) (k : Slot) : Prop :=
  gameEmpty k s = false ∨ ∀ e, s.entry k = some e → e.gameCharged = true

/-- From `s` to `t`, slot `k` has left UP on lane `x` without a ball (R128, R170): a charge
pending for him is cancelled, and a LOCKED account unlocks, with CREDIT out of the hold-reason
set and UNLOCK offered; otherwise the account stays. -/
def State.Cancels (s : State) (x : Lane) (k : Slot) (t : State) : Prop :=
  let cancelled := { s.acct x with pending := none }
  ((∀ c, (s.acct x).pending = some c → c.slot ≠ k) → t.acct x = s.acct x) ∧
  ∀ kind, (s.acct x).pending = some ⟨k, kind⟩ →
    ((s.acct x).state = .locked → t.acct x = { cancelled with state := .opened } ∧
      (t.seq x).holds.credit = false ∧
      (offer (.unlock x .chargeCancelled) s).loop.notices <+: t.loop.notices) ∧
    ((s.acct x).state ≠ .locked → t.acct x = cancelled)

/-- The second ball of the rack that ball `p` of a frame, counted from 0, opens, where it is
rack-first and has one (R145, R156). The racks are read from the balls as they stand (log entry
39). -/
def secondOfRack (balls : List BallEntry) (p : Nat) : Option BallEntry :=
  if rackFirst balls p = true ∧ rackFirst balls (p + 1) = false then balls[p + 1]? else none

/-- The outcome of a correction of ball `p` of a frame, `b`, to `pins` (R155, steps 5 to 7, and the
table of R156, row by row). In NINE_TAP a first ball of 9 on a full rack counts 10 in the new sum
(log entry 12). -/
def correctionOutcome (format : Format) (balls : List BallEntry) (p : Nat) (b : BallEntry)
    (pins : Nat) : Status :=
  let second := secondOfRack balls p
  let partner := if rackFirst balls p = true then second else balls[p - 1]?
  let value :=
    if b.marks.foul = true then 0
    else if format = .nineTap ∧ rackFirst balls p = true ∧ b.before = 10 ∧ pins = 9 then 10
    else pins
  if b.before < pins then .range
  else if b.marks.strike = true ∨ b.marks.spare = true then .classChange
  else if second.any (·.marks.spare) = true then
    if b.marks.foul = true ∨ pins ≤ (if format = .nineTap then 8 else 9) then .done
    else .classChange
  else if b.marks.foul = false ∧ second.any (fun c => decide (b.before - pins < c.pinfall)) = true
    then .range
  else if 10 ≤ value + (partner.map (·.value)).getD 0 then .classChange
  else if b.marks.foul = false ∧ b.pinfall ≠ b.before ∧ pins = b.before then .classChange
  else .done

/-- The balls of a frame after an accepted correction of ball `p`, `b`, to `pins` (R157, steps 1
and 2). -/
def ballsCorrected (balls : List BallEntry) (p : Nat) (b : BallEntry) (pins : Nat) :
    List BallEntry :=
  let foul := b.marks.foul
  let left := b.before - pins
  let named := balls.set p
    { b with
      pinfall := pins, value := if foul = true then 0 else pins
      marks := { b.marks with gutter := decide (foul = false ∧ pins = 0), split := false } }
  if secondOfRack balls p ≠ none ∧ foul = false then
    named.modify (p + 1) fun c =>
      if c.marks.spare = true then { c with before := left, pinfall := left, value := left }
      else { c with before := left }
  else named

/-- The score that R149 gives frame `j`, counted from 0, from the values of its own balls and of
the later ones. -/
def scoreByRule (frames : List FrameRecord) (j : Nat) : Nat :=
  let own := ((frames[j]?).map (·.balls)).getD []
  let later := ((frames.drop (j + 1)).flatMap (·.balls)).map (·.value)
  if j < 9 ∧ (own[0]?).any (·.marks.strike) = true then 10 + (later.take 2).sum
  else if j < 9 ∧ (own[1]?).any (·.marks.spare) = true then 10 + (later.take 1).sum
  else (own.map (·.value)).sum

/-- The loop counters with one more event on each counter that `f` raises, stopping at 65,535
(R17). -/
def State.counted (s : State) (f : LoopCounters → LoopCounters) : State :=
  { s with loop := { s.loop with counters := f s.loop.counters } }

/-- A frame whose check agrees (R3). -/
def Good (f : Frame) : Prop := f.check = crc16 (frameBytes f)

/-- The loop is UP and the part is not in REPEATER, so that a good frame only restarts the loop
timer (R15). -/
def State.Hears (s : State) : Prop := s.repeater = false ∧ s.loop.up = true

/-- The state with the loop timer restarted (R15). -/
def State.heard (s : State) : State :=
  { s with loop := { s.loop with timer := some (s.now + 50) } }

/-- The state with a frame sent on at LOOP_OUT. -/
def State.sent (s : State) (f : Frame) : State := { s with loop := { s.loop with out := some f } }

/-- The state with an individual command's reply at the tail of the reply queue (R12, R21, R182). -/
def State.replied (s : State) (h : CommandHead) (code : Byte) (st : Status) (contents : List Byte) :
    State :=
  { s with loop :=
      { s.loop with
        replies := s.loop.replies ++ [⟨h.sequence, st, code :: st.code :: contents⟩] } }

/-! ### A lane's work, in the terms of chapter 5 -/

/-- From `s` to `t`, lane `x`'s scored ball has been dropped (R94, step 4): its record is dead,
wherever it stands, and the copy is gone. -/
def State.Drops (s : State) (x : Lane) (t : State) : Prop :=
  let dead := List.map fun b : BallRecord =>
    if (s.seq x).scored = some b.id then { b with scored := false, slot := none } else b
  (t.laneTransit x).inFlight = dead (s.laneTransit x).inFlight ∧
    (t.laneTransit x).pitHold = dead (s.laneTransit x).pitHold ∧ (t.laneTransit x).copy = none

/-- From `s` to `t`, the park has been handed to sequencer `x`, whose hold-reason set is `holds` by
then (R100, row by row). A SCAN is the only order that BALL_OUT, SETTLE and SCAN can have out. -/
def State.Parks (s : State) (x : Lane) (holds : HoldSet) (t : State) : Prop :=
  let q := { s.seq x with holds := holds, parkPending := true }
  let r := s.station (.pin x)
  let parking := fun (q : Sequencer) (free : Prop) =>
    (t.station (.pin x)).cell = some (.pin false true) ∧
    (r.state = .ready → free →
      t.seq x = { q with
        state := .parking, order := some ⟨.park, true⟩
        orderTimer := some (s.now + s.command.timing.cycleTimeout) } ∧
      (t.station (.pin x)).slot = some ⟨.pin .park, r.nextTag, false⟩) ∧
    (r.state ≠ .ready → t.seq x = { q with state := .parking, order := some ⟨.park, false⟩ })
  (q.state = .ready ∨ q.state = .held → parking q (r.slot = none)) ∧
  (q.state = .ballOut ∨ q.state = .settle ∨ q.state = .scan →
    (∀ o, q.order = some o → o.order = .scan) →
    parking { q with
        scored := none, retry := false, settleTimer := none
        orderTimer := if q.order = none then q.orderTimer else none }
      (r.slot = none ∨ q.order = some ⟨.scan, true⟩) ∧ (t.laneTransit x).copy = none) ∧
  (q.state = .liftWait → parking { q with place := none } (r.slot = none) ∧
    (q.place ≠ none → ∀ w ∈ t.transit.waiters, w.lane ≠ x)) ∧
  (q.state = .recover ∨ q.state = .fault → t.seq x = { q with resume := some .park }) ∧
  (q.state = .cycling ∨ q.state = .starting ∨ q.state = .parking ∨ q.state = .parked →
    t.seq x = q)

/-- The Loop Port once the close of lane `x` has completed with record `r`: SETTLEMENT is offered,
and an individual LANE_CLOSE that still holds the slot is answered DONE with the record (R22; R175,
steps 5 and 6). -/
def State.closeTold (s : State) (x : Lane) (r : Settlement) : LoopPort :=
  let told := (offer (.settlement r) s).loop
  match s.command.slot with
  | some ⟨code, sequence, false, .closing y⟩ =>
    if y = x then
      { told with replies := told.replies ++ [⟨sequence, .done, code :: 0 :: r.bytes⟩] }
    else told
  | _ => told

/-- From `s` to `t`, the close of lane `x` has completed with record `r` (R175, steps 2 to 6): the
account is CLOSED with its last settlement, CLOSING is out of the hold-reason set, the lane has the
park, SETTLEMENT is offered, and the LANE_CLOSE that holds the slot is answered. -/
def State.CloseCompletes (s : State) (x : Lane) (r : Settlement) (t : State) : Prop :=
  t.acct x = { s.acct x with state := .closed, closeTimer := none, last := some r } ∧
  t.acct x.other = s.acct x.other ∧ (t.laneTransit x).closeWatch = false ∧
  (t.station (.con x)).cell = some (.con .closed) ∧
  s.Parks x { (s.seq x).holds with closing := false } t ∧ t.loop = s.closeTold x r ∧
  t.command = { s.command with
    slot := if s.command.slot.map (·.work) = some (.closing x) then none else s.command.slot }

/-- From `s` to `t`, hold reason `r` has been put into lane `x`'s set, or taken out where `v` is
false: R80's second and third moments with R81, and R79's absence of any other effect. -/
def State.HoldMade (s : State) (x : Lane) (r : HoldReason) (v : Bool) (t : State) : Prop :=
  let q := s.seq x
  let holds := q.holds.put r v
  let added := v = true ∧ q.holds.has r = false ∧ q.state = .ready
  let emptied := v = false ∧ q.holds.has r = true ∧ holds = .empty ∧ q.state = .held
  let shows := fun guard : Bool => (t.station (.pin x)).cell = some (.pin guard true)
  (t.seq x).holds = holds ∧
  (added → shows false ∧
    ((s.laneTransit x).pitHold = [] → t.seq x = { q with state := .held, holds := holds }) ∧
    ((s.laneTransit x).pitHold ≠ [] →
      (t.seq x).state = .liftWait ∨ (t.seq x).state = .cycling)) ∧
  (emptied → shows true ∧ t.seq x = { q with state := .ready, holds := holds }) ∧
  (¬added → ¬emptied → t.seq x = { q with holds := holds } ∧
    t.station (.pin x) = s.station (.pin x) ∧ t.laneTransit x = s.laneTransit x)

/-- From `s` to `t`, lane `x` has begun the lift of the balls in its pit, with nothing else waiting
for places (R81, R84): CYCLING with LIFT_ONLY out once it has its places, and otherwise waiting
for them in LIFT_WAIT. -/
def State.LiftBegins (s : State) (x : Lane) (t : State) : Prop :=
  let n := (s.laneTransit x).pitHold.length
  let u := t.seq x
  u.standing = (s.seq x).standing ∧
  (s.transit.fault = none → n ≤ freePlaces s.transit →
    u.state = .cycling ∧ u.order.map (·.order) = some .liftOnly ∧ u.place = none ∧
    (t.laneTransit x).reservation = n ∧ t.transit.waiters = []) ∧
  (s.transit.fault ≠ none ∨ freePlaces s.transit < n →
    u.state = .liftWait ∧ u.order = (s.seq x).order ∧ u.place = some ⟨n, .liftOnly⟩ ∧
    t.transit.waiters = [⟨x, n⟩] ∧ (t.laneTransit x).reservation = (s.laneTransit x).reservation)

/-- From `s` to `t`, a fault that makes an entry has put lane `x` in FAULT (R94, steps 1 to 5):
with the resume order that its state gives, nothing out, no start pending, and the scored ball of
BALL_OUT, SETTLE and SCAN dropped. -/
def State.EntersFault (s : State) (x : Lane) (code : FaultCode) (station : Option Byte) (t : State) :
    Prop :=
  let q := s.seq x
  let ball := q.state = .ballOut ∨ q.state = .settle ∨ q.state = .scan
  let again := if q.startPending = true then some .fullSet
    else if q.state = .recover then q.resume
    else if q.state = .parked ∨ q.state = .parking ∨ q.parkPending = true then some .park
    else if q.state = .starting then some .fullSet
    else (q.order.map (·.order)).or (q.place.map (·.order))
  t.seq x = { q with
    state := .fault, fault := some ⟨code, station⟩, resume := again, startPending := false
    order := none, orderTimer := if q.order = none then q.orderTimer else none, place := none
    settleTimer := none, scored := if ball then none else q.scored
    retry := if ball then false else q.retry } ∧
  (ball → s.Drops x t) ∧ (t.station (.pin x)).cell = some (.pin false true)

/-- Whether lane `x`, cleared, is PARKED at its entry into RECOVER (R99, cause 2). -/
def State.ParksAtClear (s : State) (x : Lane) : Prop :=
  s.line.estop = false ∧ (s.seq x).resume = some .park ∧ (s.station (.pin x)).state ≠ .ready

/-- The fault that lane `x`, cleared, enters again from RECOVER (R99, causes 1, 3 and 4, in their
order with cause 2). A clear sets the clear step, so that a station condition is no cause. -/
def State.causeAtClear (s : State) (x : Lane) : Option FaultCode :=
  if s.line.estop = true then some .estop
  else if (s.seq x).resume = some .park ∧ (s.station (.pin x)).state ≠ .ready then none
  else if (s.station (.pin x)).state = .lost then some .link
  else if (s.seq x).pitStuck = true then some .trigger
  else none

/-- From `s` to `t`, a clear has taken lane `x` from FAULT into RECOVER (R97, R99): back to FAULT
with its resume record kept where a cause stands, to PARKED where it has PARK to do and no pinsetter
that is READY, and otherwise to the CLEAR order, posted with its timer at a pinsetter that is READY
and wanted at another. -/
def State.Recovers (s : State) (x : Lane) (t : State) : Prop :=
  let q := s.seq x
  let r := s.station (.pin x)
  let recover := { q with state := .recover, fault := none, clearStep := true }
  let clears := s.causeAtClear x = none ∧ ¬s.ParksAtClear x
  (∀ code, s.causeAtClear x = some code → q.order = none ∨ q.place = none →
    (s.modSeq x fun _ => recover).EntersFault x code none t) ∧
  (s.ParksAtClear x → (t.station (.pin x)).cell = some (.pin false false) ∧
    ∃ again step, t.seq x = { q with
      state := .parked, fault := none, parkPending := false, resume := again, clearStep := step }) ∧
  (clears → (t.station (.pin x)).cell = some (.pin false true)) ∧
  (clears → r.state = .ready → r.slot = none →
    t.seq x = { recover with
      order := some ⟨.clear, true⟩
      orderTimer := some (s.now + s.command.timing.cycleTimeout) } ∧
    (t.station (.pin x)).slot = some ⟨.pin .clear, r.nextTag, false⟩) ∧
  (clears → r.state ≠ .ready →
    t.seq x = { recover with order := some ⟨.clear, false⟩ } ∧ (t.station (.pin x)).slot = r.slot)

/-- The state once lane `x`'s clear, offered in `s` already, has offered the FAULT of the cause that
stands, if one does (R94, R99). -/
def State.faultsAgain (s : State) (x : Lane) : State :=
  match s.causeAtClear x with
  | some code => offer (.fault x code none) s
  | none => s

/-- From `s` to `t`, a wake has reached the pit link (R55 to R57): it leaves a link that is RUNNING
or WAKING as it is, but that a pending quiet round holds it (while WAKING too, log entry 9); a QUIET
link has every position JOINING, with its baseline and cache and with its tags to be taken at its
next report (the rejoin mark, log entry 23), and its first round starts at once, or, within 200 ms
of the quiet entry, the link is WAKING. -/
def State.Wakes (s t : State) : Prop :=
  let at200 := ∀ e, s.link.quietEntry = some e → e + 200 ≤ s.now
  (s.link.state ≠ .quiet → t.link.state = s.link.state ∧ t.link.round = s.link.round ∧
    t.link.wakeHeld = (s.link.wakeHeld || s.link.quietPending)) ∧
  (s.link.state = .quiet →
    (∀ p, (t.station p).state = .joining ∧ (t.station p).rejoin = true ∧
      (t.station p).misses = 0 ∧ (t.station p).baseline = (s.station p).baseline ∧
      (t.station p).cache = (s.station p).cache) ∧
    (at200 → t.link.state = .running ∧
      t.link.round = some ⟨s.link.nextRound, s.link.quietPending, .pin .A, false⟩ ∧
      t.link.roundTimer = some (s.now + s.command.timing.roundPeriod)) ∧
    (¬at200 → t.link.state = .waking ∧ t.link.round = s.link.round))

/-! ### Command bodies (R20, R184) -/

/-- Whether a table record has another length than R184 requires of the table's code, or, in a
lines record, a polarity or an enable byte outside its codes. -/
def recordOff (table : Byte) (record : List Byte) : Bool :=
  let count := (record.head?).map (·.toNat)
  match table.toNat with
  | 1 => decide (some record.length ≠ count.map fun n => 3 + 8 * n)
  | 2 => decide (record.length ≠ 28)
  | 3 => decide (record.length ≠ 15) || ((List.range 7).any fun i => 1 < (record.getD (2 * i) 0)) ||
      decide (3 < record.getD 14 0)
  | 4 => decide (some record.length ≠ count.map fun n => 1 + n)
  | _ => true

/-- Whether an argument of a desk command is a selector outside its list, an identifier out of its
range, or a table record that is off (R20, steps 2 and 3; R73; R184). -/
def argumentOff : Instr → Bool
  | .statusRead _ c => 1 < c
  | .accountRead _ x => 1 < x
  | .settlementRead _ x => 1 < x
  | .scoreRead _ k g => 11 < k || 3 < g
  | .stationRead _ p => 4 < p
  | .stationQuery _ p => 4 < p
  | .tableLoadRates _ r => recordOff 1 r
  | .tableLoadTiming _ r => recordOff 2 r
  | .tableLoadLines _ r => recordOff 3 r
  | .tableLoadGroups _ r => recordOff 4 r
  | .sessionSet _ m f _ x => 1 < m || 1 < f || 1 < x
  | .laneOpen _ x m p _ _ => 1 < x || 2 < m || 1 < p
  | .laneClose _ x f => 1 < x || 1 < f
  | .creditAdd _ x _ => 1 < x
  | .rosterAdd _ k t => 11 < k || 3 < t
  | .rosterMove _ k x => 11 < k || 1 < x
  | .rosterWithdraw _ k => 11 < k
  | .skip _ x => 1 < x
  | .scoreCorrect _ k g _ _ _ => 11 < k || 3 < g
  | .callAck _ x => 1 < x
  | .override _ l v => 1 < l || 2 < v
  | .bandHold _ a _ => 1 < a
  | .hold _ x a => 1 < x || 1 < a
  | _ => false

/-- The widths of the arguments of the commands 1 to 29, together, by code (R184); TABLE_LOAD's
stands as 0 and is read from its record. -/
def argumentWidths : List Nat :=
  [1, 1, 1, 0, 2, 1, 0, 1, 0, 4, 0, 0, 11, 2, 5, 2, 2, 1, 1, 5, 1, 1, 2, 2, 1, 0, 0, 0, 2]

/-- Whether the arguments after a known code have the wrong length, or, in the commands that one
code shares among rows, name a table, a FAULT_CLEAR target or a PIT_RESTART kind that is not in
its list (R20, step 2; R184). -/
def bodyOff (code : Byte) (args : List Byte) : Bool :=
  if code = 9 then
    match args with
    | [] => true
    | table :: record => recordOff table record
  else
    some args.length != argumentWidths[code.toNat - 1]? || (code == 21 && 3 < args.getD 0 0) ||
      (code == 25 && 1 < args.getD 0 0)

/-- The COMMAND body of a desk command as R184 lays it out; a row that stands for no one code and
no desk command has none. -/
def commandBody : Instr → Option (List Byte)
  | .statusRead _ c => some [1, c]
  | .accountRead _ x => some [2, x]
  | .settlementRead _ x => some [3, x]
  | .rosterRead _ => some [4]
  | .scoreRead _ k g => some [5, k, g]
  | .stationRead _ p => some [6, p]
  | .transitRead _ => some [7]
  | .stationQuery _ p => some [8, p]
  | .tableLoadRates _ r => some (9 :: 1 :: r)
  | .tableLoadTiming _ r => some (9 :: 2 :: r)
  | .tableLoadLines _ r => some (9 :: 3 :: r)
  | .tableLoadGroups _ r => some (9 :: 4 :: r)
  | .sessionSet _ m f l x => some [10, m, f, l, x]
  | .sessionEnd _ => some [11]
  | .certify _ => some [12]
  | .laneOpen _ x m p c w => some ([13, x, m, p] ++ beBytes 4 c.toNat ++ beBytes 4 w.toNat)
  | .laneClose _ x f => some [14, x, f]
  | .creditAdd _ x a => some ([15, x] ++ beBytes 4 a.toNat)
  | .rosterAdd _ k t => some [16, k, t]
  | .rosterMove _ k x => some [17, k, x]
  | .rosterWithdraw _ k => some [18, k]
  | .skip _ x => some [19, x]
  | .scoreCorrect _ k g f b n => some [20, k, g, f, b, n]
  | .faultClearLane _ x => some [21, Lane.code x]
  | .faultClearReturn _ => some [21, 2]
  | .faultClearEstop _ => some [21, 3]
  | .callAck _ x => some [22, x]
  | .override _ l v => some [23, l, v]
  | .bandHold _ a i => some [24, a, i]
  | .pitRestartWarm _ => some [25, 0]
  | .pitRestartCold _ => some [25, 1]
  | .pitQuiet _ => some [26]
  | .pitWake _ => some [27]
  | .reset _ => some [28]
  | .hold _ x a => some [29, x, a]
  | _ => none

end Sys2Proof.Machine
end

