-- ==== Sys2Proof/Certificates/Slice0/Obligations.lean ====
section
/-! DEFINITION. The statements made about the part. -/

open Sys2Proof Sys2Proof.Machine

/-! ### The step and the end of an event -/

/-- One step carries out the command at the front of the queue with the rest of the queue waiting
(section 3 of the introduction), and on an empty queue the part idles (the model's choice, log
entry 2). -/
def Obligations.StepRunsFront : Prop :=
  (∀ (c : Instr) (rest : List Instr) (s : State),
    s.pending = c :: rest → step s = exec c { s with pending := rest }) ∧
  ∀ s : State, s.pending = [] → step s = .next s

/-- R50, R53 and R70: every command ends in a next state; in it no console in READY with an empty
order slot has an answer waiting or an item in its dirty list, and the outputs are arbitrated. That
the test of R53 is made at the end of the event is the model's choice (log entry 8). -/
def Obligations.EveryEventEnds : Prop :=
  ∀ (c : Instr) (s : State), ∃ t, exec c s = .next t ∧ t.OutputsStand ∧
    ∀ x : Lane, (t.station (.con x)).state = .ready → (t.station (.con x)).slot = none →
      (t.station (.con x)).answer = none ∧ t.link.dirty.get x = []

/-- R71, R72, R75, and the values of R74. After every command PAIR_POWER, RETURN_MOTOR, DESK_CALL
and both lamps stand at the value of their highest driver. RETURN_MOTOR's lowest driver is the motor
demand of R121 with the pair powered: the idle timer is not stopped, or a pit hold or the track is
not empty, and an account is not CLOSED. -/
def Obligations.DriversDecide : Prop :=
  ∀ (c : Instr) (s t : State), exec c s = .next t →
    (t.line.outputs.pairPower =
      if t.line.estop = true then false
      else match t.line.powerOverride with
        | some v => v
        | none => decide ((t.acct .A).state ≠ .closed ∨ (t.acct .B).state ≠ .closed ∨
            (t.seq .A).state ≠ .parked ∨ (t.seq .B).state ≠ .parked)) ∧
    (t.line.outputs.returnMotor =
      if t.line.estop = true then false
      else if t.transit.fault ≠ none then false
      else match t.line.motorOverride with
        | some v => v
        | none => decide ((t.transit.idleTimer ≠ .stopped ∨ (t.laneTransit .A).pitHold ≠ [] ∨
              (t.laneTransit .B).pitHold ≠ [] ∨ t.transit.track ≠ []) ∧
            ((t.acct .A).state ≠ .closed ∨ (t.acct .B).state ≠ .closed) ∧
            t.line.outputs.pairPower = true)) ∧
    (t.line.outputs.deskCall =
      if t.link.call.a = true ∨ t.link.call.b = true then .steady
      else if (t.seq .A).state = .fault ∨ (t.seq .B).state = .fault ∨ t.transit.fault ≠ none then
        .slow
      else .off) ∧
    ∀ x : Lane, t.line.outputs.lamp.get x =
      if t.line.estop = true then .fast
      else if t.line.foulLamp.get x ≠ none then .steady
      else if (t.seq x).state = .fault ∨ (t.acct x).state = .locked then .slow
      else .off

/-! ### Power-on and reset -/

/-- The power-on values of the blocks (R8, R16, R18, R28, R35, R59, R77, R103, R124, R125, R132,
R142, R162, R179), after POWER_ON with any strap; the first round has started, so that its number 0
is used (R59). The queue of commands and the count of free choices are the model's own and go on
(log entry 5). The level LOW in which an input line's record stands for no run is the model's choice
(log entry 29), and the line's waiting acceptances and a position's rejoin mark, empty and clear
here, are the model's own fields (log entry 23). -/
def Obligations.PowerOnValues : Prop :=
  ∀ (strap : BitVec 6) (s : State), ∃ t, exec (.powerOn strap) s = .next t ∧
    t.loop.pairNumber = strap ∧ t.loop.up = false ∧ t.loop.downTime = 0 ∧ t.loop.groups = 0 ∧
    t.loop.replies = [] ∧ t.loop.notices = [] ∧ t.loop.noticesLost = false ∧
    t.loop.counters = .zero ∧
    t.command.slot = none ∧ t.command.timing = .default ∧ t.command.lines = .default ∧
    t.link.state = .running ∧ t.link.stations = .all .initial ∧ t.link.dirty = .both [] ∧
    t.link.call = .both false ∧ t.link.quietEntry = none ∧ t.link.quietPending = false ∧
    t.link.round = some ⟨0, false, .pin .A, false⟩ ∧ t.link.nextRound = 1 ∧
    t.line.lines = ⟨.initial, .initial, .initial, .initial, .initial, .initial, .initial⟩ ∧
    t.line.estop = false ∧ t.line.powerOverride = none ∧ t.line.motorOverride = none ∧
    t.line.foulLamp = .both none ∧ t.line.outputs = ⟨false, false, .both .off, .off⟩ ∧
    (∀ x, t.seq x =
      { state := .parked, holds := { HoldSet.empty with noBowler := true }, standing := 0
        practice := false, scored := none, retry := false, order := none, place := none
        settleTimer := none, orderTimer := none, fault := none, resume := none
        clearStep := false, startPending := false, parkPending := false, pitStuck := false
        condition := 0 }) ∧
    t.transit = .initial ∧
    t.roster.session = ⟨.opened, .tenPin, 0, .A⟩ ∧ rosterEmpty t = true ∧
    t.roster.queues = .both [] ∧ t.roster.handover1 = [] ∧ t.roster.handover2 = [] ∧
    t.roster.team1Lane = .A ∧ t.roster.practice = .both false ∧
    (∀ k, t.bowler k = none) ∧ t.score.certified = false ∧
    t.account.accounts = .both .initial ∧ t.account.rates = ⟨0, 1, []⟩ ∧
    t.account.bandHold = none ∧ t.account.centre = none ∧
    t.time = ⟨0, false, 60000⟩ ∧ t.pending = s.pending ∧ t.freeChoices = s.freeChoices

/-- The state right after reset meets every invariant stated below. -/
def Obligations.ResetMeetsInvariants : Prop :=
  State.reset.QueuesFit ∧ State.reset.OutputsStand ∧ State.reset.QuietClosed ∧
    State.reset.BallsBalance ∧ State.reset.TrackFits ∧ State.reset.HeadWaits ∧
    State.reset.MetersFit ∧
    State.reset.LanesRestRight ∧ State.reset.CellsShow .A ∧ State.reset.CellsShow .B ∧
    State.reset.GamesPlay

/-! ### Invariants that every step keeps -/

/-- R12 and R33: the reply queue never holds more than 4 replies, held place counted, and the notice
queue never more than 16. -/
def Obligations.QueuesFitKept : Prop :=
  ∀ s t : State, s.QueuesFit → step s = .next t → t.QueuesFit

/-- R55: the link is QUIET only while both lane accounts are CLOSED. -/
def Obligations.QuietClosedKept : Prop :=
  ∀ s t : State, s.QuietClosed → step s = .next t → t.QuietClosed

/-- R122: the launches seen and inferred equal the balls in the records plus the matched arrivals
plus the net write-offs, modulo 4,294,967,296. -/
def Obligations.BallsBalanceKept : Prop :=
  ∀ s t : State, s.BallsBalance → step s = .next t → t.BallsBalance

/-- R115: the return track and the reservations never take more than its eight places. R115 and
R116: every event leaves the head of the waiter list one that cannot be granted, since the grant
test is made wherever places, the return fault or the head change. -/
def Obligations.TrackFitsKept : Prop :=
  (∀ s t : State, s.TrackFits → step s = .next t → t.TrackFits) ∧
  ∀ s t : State, s.HeadWaits → step s = .next t → t.HeadWaits

/-- R169: on a lane with credit, the charged amount never exceeds the credit; and an open tab's
meter never exceeds its limit (R168).

R145, R148, R149 and R151: a current game stays within its ten frames, since the event that ends its
tenth frame empties it; no ball that opens a frame is a spare; and every bonus wait is of a frame
before the current one that a strike or a second ball has ended, with a ball still to come. -/
def Obligations.MetersFitKept : Prop :=
  (∀ s t : State, s.MetersFit → step s = .next t → t.MetersFit) ∧
  ∀ s t : State, s.GamesPlay → step s = .next t → t.GamesPlay

/-- R79 and R80: a lane in READY has an empty hold-reason set, and a lane in HELD a set that is not
empty; neither has a park to make. -/
def Obligations.LanesRestRightKept : Prop :=
  ∀ s t : State, s.LanesRestRight → step s = .next t → t.LanesRestRight

/-- R45 and R78: a valid standing-state cell of a pinsetter shows its sequencer's state, and that of
a console the banner of R45's list. -/
def Obligations.CellsShowKept : Prop :=
  ∀ (x : Lane) (s t : State), s.CellsShow x → step s = .next t → t.CellsShow x

/-! ### The lane loop -/

/-- R2: in REPEATER every frame is sent on unchanged, whatever its check and kind, and nothing else
happens to the Loop Port. -/
def Obligations.RepeaterSendsOn : Prop :=
  ∀ (f : Frame) (s : State), s.repeater = true →
    exec (.loopFrameArrival f) s = .next (finish (s.sent f))

/-- R3 and R4. A frame with a bad check is destroyed: the check-error counter rises by one,
stopping at 65,535, and a fresh BLANK, which is free, goes on in its place; the loop timer and
the loop state stay. A good frame of unknown kind, or a COMMAND, BROADCAST or BEACON with a
disordered span, a span field above 63 or a body length above 54, is repeated unchanged, is
counted and does nothing else. -/
def Obligations.BadFramesKeptOut : Prop :=
  ∀ (f : Frame) (s : State), s.repeater = false →
    (¬Good f →
      exec (.loopFrameArrival f) s =
        .next (finish (sendBlank (freshBlank s)
          (s.counted fun c => { c with checkErrors := min 65535 (c.checkErrors + 1) })))) ∧
    (Good f → s.loop.up = true →
      (5 < f.kind.toNat ∨
        (f.kind = 1 ∨ f.kind = 4 ∨ f.kind = 5) ∧
          (f.spanLast.toNat < f.spanFirst.toNat ∨ 63 < f.spanFirst.toNat ∨
            63 < f.spanLast.toNat ∨ 54 < f.bodyLength.toNat)) →
      exec (.loopFrameArrival f) s =
        .next (finish ((s.heard.counted
          fun c => { c with malformed := min 65535 (c.malformed + 1) }).sent f)))

/-- R10: a good REPLY or NOTICE is repeated unchanged, whatever its origin, span and flags; a
good BLANK is handled by the insertion rule. Before that the loop timer is restarted, and a loop
that was DOWN comes UP and offers LOOP_RESTORED with the outage in whole seconds, at most 65,535
(R3, R16). -/
def Obligations.ReplyAndNoticeRepeated : Prop :=
  ∀ (f : Frame) (s : State), s.repeater = false → Good f →
    let up := { s.heard with loop := { s.heard.loop with up := true } }
    let outage := min 65535 ((s.now - s.loop.downTime) / 1000)
    let u := if s.loop.up = true then s.heard else offer (.loopRestored outage) up
    (f.kind = 2 ∨ f.kind = 3 → exec (.loopFrameArrival f) s = .next (finish (u.sent f))) ∧
    (f.kind = 0 → exec (.loopFrameArrival f) s = .next (finish (sendBlank f u))) ∧
    goodFrame s = u

/-- R11, R13 and R14: a good BLANK carries the reply at the head of the reply queue, or, with no
reply waiting, the notice at the head of the notice queue, or else goes on unchanged. No RESET
waits for a departure here. -/
def Obligations.BlankFilled : Prop :=
  ∀ (f : Frame) (s : State), s.Hears → Good f → f.kind = 0 →
    (∀ d, s.command.slot = some d → ∀ n, d.work ≠ .resetting n) →
    ∃ t g, exec (.loopFrameArrival f) s = .next t ∧ t.loop.out = some g ∧ Good g ∧
      t.seqs = s.seqs ∧ t.transit = s.transit ∧ t.account = s.account ∧ t.command = s.command ∧
      match s.loop.replies, s.loop.notices with
      | r :: rest, n =>
        g.kind = 2 ∧ g.spanFirst = 0 ∧ g.spanLast = 0 ∧ g.origin = ownPair s ∧
          g.sequence = r.sequence ∧ g.flags = 0 ∧ g.bodyLength = BitVec.ofNat 8 r.body.length ∧
          g.spare = 0 ∧ g.body = bodyOf r.body ∧ t.loop.replies = rest ∧ t.loop.notices = n ∧
          t.loop.noticesLost = s.loop.noticesLost ∧
          t.loop.counters.repliesSent = min 65535 (s.loop.counters.repliesSent + 1)
      | [], n :: rest =>
        g.kind = 3 ∧ g.spanFirst = 0 ∧ g.spanLast = 0 ∧ g.origin = ownPair s ∧ g.sequence = 0 ∧
          g.flags = (if s.loop.noticesLost = true then 1 else 0) ∧
          g.bodyLength = BitVec.ofNat 8 n.bytes.length ∧ g.spare = 0 ∧ g.body = bodyOf n.bytes ∧
          t.loop.replies = [] ∧ t.loop.notices = rest ∧ t.loop.noticesLost = false ∧
          t.loop.counters.noticesSent = min 65535 (s.loop.counters.noticesSent + 1)
      | [], [] => g = f ∧ t.loop.replies = [] ∧ t.loop.notices = []

/-- R5 to R7. A COMMAND outside whose span the pair lies is sent on and not handed over; one whose
span goes on past the pair is handed to the Command Unit and sent on; at span last it is handed over
and a fresh BLANK, which is free, is sent in its place, before or after it is carried out. A
BROADCAST is sent on or stripped in the same way. Its topic is acted on inside the span by a pair of
its group, group 0 being every pair's, and does there what the topic's row does. A group RESET that
is taken at span last is carried out after the fresh BLANK has been sent as it was made before the
reset (R18, R31). A BROADCAST of another length, with an unknown topic or with an argument outside
its list, is counted as malformed, at any pair that it passes (log entry 11). -/
def Obligations.CommandBySpan : Prop :=
  (∀ (f : Frame) (s : State), s.Hears → Good f → f.kind = 1 →
    f.spanFirst.toNat ≤ f.spanLast.toNat → f.spanLast.toNat ≤ 63 → f.bodyLength.toNat ≤ 54 →
    let p := s.loop.pairNumber.toNat
    let act := takeBody ⟨f.spanFirst, f.spanLast, f.sequence⟩ (frameBody f)
    let s' := { s.heard with freeChoices := s.freeChoices + 1 }
    (p < f.spanFirst.toNat ∨ f.spanLast.toNat < p →
      exec (.loopFrameArrival f) s = .next (finish (s.heard.sent f))) ∧
    (f.spanFirst.toNat ≤ p → p < f.spanLast.toNat →
      exec (.loopFrameArrival f) s = .next (finish ((act s.heard).sent f))) ∧
    (p = f.spanLast.toNat →
      exec (.loopFrameArrival f) s = .next (finish (sendBlank (freshBlank s) (act s'))) ∨
      exec (.loopFrameArrival f) s = .next (finish (act (sendBlank (freshBlank s) s')))) ∧
    (p = f.spanLast.toNat → f.spanFirst.toNat < p → frameBody f = [28] → s.command.slot = none →
      exec (.loopFrameArrival f) s = .next (finish (act (sendBlank (freshBlank s) s'))))) ∧
  (∀ (f : Frame) (s : State), s.Hears → Good f → f.kind = 5 →
    f.spanFirst.toNat ≤ f.spanLast.toNat → f.spanLast.toNat ≤ 63 → f.bodyLength.toNat ≤ 54 →
    let p := s.loop.pairNumber.toNat
    let inside := f.spanFirst.toNat ≤ p ∧ p ≤ f.spanLast.toNat
    let s' := { s.heard with freeChoices := s.freeChoices + 1 }
    let passes := fun work : State → State =>
      (p ≠ f.spanLast.toNat →
        exec (.loopFrameArrival f) s = .next (finish ((work s.heard).sent f))) ∧
      (p = f.spanLast.toNat →
        exec (.loopFrameArrival f) s = .next (finish (sendBlank (freshBlank s) (work s'))) ∨
        exec (.loopFrameArrival f) s = .next (finish (work (sendBlank (freshBlank s) s'))))
    let bad := fun u : State =>
      u.counted fun c => { c with malformed := min 65535 (c.malformed + 1) }
    ((frameBody f).length ≠ 4 → passes bad) ∧
    ∀ group topic a b, frameBody f = [group, topic, a, b] →
      let flag := a = 0 ∨ a = 1
      let known := (topic = 1 ∧ flag) ∨ (topic = 2 ∧ flag ∧ b = 0) ∨
        ((topic = 3 ∨ topic = 4) ∧ a = 0 ∧ b = 0)
      let member := group = 0 ∨ (group.toNat ≤ 15 ∧ s.loop.groups.getLsbD group.toNat = true)
      (¬known → passes bad) ∧
      (known → ¬(inside ∧ member) → passes id) ∧
      (inside → member →
        (topic = 1 → a = 1 → passes (topicBandHold (some b.toNat))) ∧
        (topic = 1 → a = 0 → passes (topicBandHold none)) ∧
        (topic = 2 → a = 1 → b = 0 → passes (topicCentreHold true)) ∧
        (topic = 2 → a = 0 → b = 0 → passes (topicCentreHold false)) ∧
        (topic = 3 → a = 0 → b = 0 → passes topicQuiet) ∧
        (topic = 4 → a = 0 → b = 0 → passes wakeLink))) ∧
  ∀ (i : Byte) (v : Bool) (s : State), s.repeater = false →
    exec (.broadcastBandHold (some i)) s = .next (finish (topicBandHold (some i.toNat) s)) ∧
    exec (.broadcastBandHold none) s = .next (finish (topicBandHold none s)) ∧
    exec (.centreHold v) s = .next (finish (topicCentreHold v s)) ∧
    exec .broadcastQuiet s = .next (finish (topicQuiet s)) ∧
    exec .broadcastWake s = .next (finish (wakeLink s))

/-- R184: the body that spells a desk command, handed to the Command Unit, does what the
command's row does.

R20, steps 2 and 3, and R184: a known code with a body of another length than it requires, or
with a table code, a FAULT_CLEAR target or a PIT_RESTART kind outside its list, is answered RANGE
and changes nothing else; so is a command with any selector outside its list (a lane, mode,
format, method, flag, action, ROSTER_ADD target, OVERRIDE line or value, a polarity or enable
byte) or with a slot, position or game index out of its range. As a group command it raises
COMMAND_REFUSED with RANGE instead (R24). -/
def Obligations.BodySpellsCommand : Prop :=
  (∀ (c : Instr) (h : CommandHead) (code : Byte) (body : List Byte) (s : State),
    c.desk = some (h, code) → commandBody c = some body →
      exec c s = .next (finish (takeBody h body s))) ∧
  (∀ (h : CommandHead) (code : Byte) (args : List Byte) (s : State),
    1 ≤ code.toNat → code.toNat ≤ 29 → bodyOff code args = true →
    (s.Takes h → takeBody h (code :: args) s = s.replied h code .range []) ∧
    (s.repeater = false → h.group = true → s.command.slot = none → 8 < code.toNat →
      takeBody h (code :: args) s = offer (.commandRefused false code h.sequence .range) s)) ∧
  ∀ (c : Instr) (h : CommandHead) (code : Byte) (s : State),
    c.desk = some (h, code) → argumentOff c = true →
    (s.Takes h → exec c s = .next (finish (s.replied h code .range []))) ∧
    (s.repeater = false → h.group = true → s.command.slot = none → 8 < code.toNat →
      exec c s = .next (finish (offer (.commandRefused false code h.sequence .range) s)))

/-- R9 and R164: a good BEACON whose span goes on past the pair sets centre time, makes it VALID,
restarts the staleness timer, is counted and is sent on unchanged; the billing tick does not move.
At span last it does the same and a fresh BLANK, which is free, is sent in its place; outside its
span it is sent on and does nothing. One of another length, or whose minute or second is out of
range, is counted as malformed, at any pair that it passes (log entry 11). -/
def Obligations.BeaconSetsCentreTime : Prop :=
  (∀ (f : Frame) (m n : Nat) (s : State), s.Hears → Good f → f.kind = 4 → m ≤ 1439 → n ≤ 59 →
    f.spanFirst.toNat ≤ s.loop.pairNumber.toNat → s.loop.pairNumber.toNat < f.spanLast.toNat →
    f.spanLast.toNat ≤ 63 → f.bodyLength = 3 → frameBody f = beBytes 2 m ++ beBytes 1 n →
    ∃ t, exec (.loopFrameArrival f) s = .next t ∧ t.loop.out = some f ∧
      centreMinute t = some m ∧ centreSecond t = n ∧ validity t = .valid ∧
      t.account.staleTimer = some (s.now + 300000) ∧
      t.loop.counters.beacons = min 65535 (s.loop.counters.beacons + 1) ∧
      t.time = s.time ∧ t.account.accounts = s.account.accounts ∧ t.seqs = s.seqs ∧
      t.loop.replies = s.loop.replies ∧ t.loop.notices = s.loop.notices ∧ t.transit = s.transit) ∧
  ∀ (f : Frame) (s : State), s.Hears → Good f → f.kind = 4 →
    f.spanFirst.toNat ≤ f.spanLast.toNat → f.spanLast.toNat ≤ 63 → f.bodyLength.toNat ≤ 54 →
    let p := s.loop.pairNumber.toNat
    let s' := { s.heard with freeChoices := s.freeChoices + 1 }
    let passes := fun work : State → State =>
      (p ≠ f.spanLast.toNat →
        exec (.loopFrameArrival f) s = .next (finish ((work s.heard).sent f))) ∧
      (p = f.spanLast.toNat →
        exec (.loopFrameArrival f) s = .next (finish (sendBlank (freshBlank s) (work s'))) ∨
        exec (.loopFrameArrival f) s = .next (finish (work (sendBlank (freshBlank s) s'))))
    (∀ a b c : Byte, frameBody f = [a, b, c] →
      let minute := a.toNat * 256 + b.toNat
      let set := fun u : State =>
        ({ u with account :=
            { u.account with
              centre := some ⟨minute * 60 + c.toNat, u.now, false⟩
              staleTimer := some (u.now + 300000) } }).counted fun k =>
          { k with beacons := min 65535 (k.beacons + 1) }
      (minute ≤ 1439 → c.toNat ≤ 59 → f.spanFirst.toNat ≤ p → p ≤ f.spanLast.toNat →
        passes set) ∧
      (minute ≤ 1439 → c.toNat ≤ 59 → p < f.spanFirst.toNat ∨ f.spanLast.toNat < p →
        exec (.loopFrameArrival f) s = .next (finish (s.heard.sent f))) ∧
      (1439 < minute ∨ 59 < c.toNat →
        passes fun u => u.counted fun k => { k with malformed := min 65535 (k.malformed + 1) })) ∧
    ((frameBody f).length ≠ 3 →
      passes fun u => u.counted fun k => { k with malformed := min 65535 (k.malformed + 1) })

/-- R15: at the expiry of the loop timer while UP the loop goes DOWN, the loop-down counter rises by
one, stopping at 65,535, the moment of the expiry is the down time, and the queues and every other
block stay. -/
def Obligations.LoopGoesDown : Prop :=
  ∀ (e : Nat) (s : State), s.Hears → s.loop.timer = some e → e ≤ s.now →
    exec .loopDown s = .next (finish { s with loop :=
      { s.loop with
        up := false, timer := none, downTime := e
        counters := { s.loop.counters with loopDowns := min 65535 (s.loop.counters.loopDowns + 1) } } })

/-! ### The Command Unit -/

/-- R19 and R20: outside REPEATER, a group read is ignored; an individual command that meets a full
reply queue is dropped and counted; a command other than STATUS_READ that meets a held slot is
answered BUSY, or raises COMMAND_REFUSED as a group command; and a taken command with an unknown
code is UNKNOWN, answered or, as a group command, raised in COMMAND_REFUSED (R24).

R24: a group command that is taken does what the individual command with the same body and sequence
does there, without its reply, and raises COMMAND_REFUSED with the outcome where that is any other
than DONE; where the command holds the slot, no reply is built yet, and it holds it as a group
command. That COMMAND_REFUSED joins the notice queue after the notices that the command's owner has
offered in the same event is the model's choice (log entry 48). RESET has a statement of its own
(R31). -/
def Obligations.FirstDecision : Prop :=
  (∀ (c : Instr) (h : CommandHead) (code : Byte) (s : State),
    c.desk = some (h, code) → s.repeater = false →
    (h.group = true → 1 ≤ code.toNat → code.toNat ≤ 8 → exec c s = .next (finish s)) ∧
    (h.group = false → freeReplies s = 0 → exec c s = .next (finish
      (s.counted fun k => { k with dropped := min 65535 (k.dropped + 1) }))) ∧
    (h.group = false → 0 < freeReplies s → s.command.slot ≠ none → code ≠ 1 →
      exec c s = .next (finish (s.replied h code .busy []))) ∧
    (h.group = true → ¬(1 ≤ code.toNat ∧ code.toNat ≤ 8) → s.command.slot ≠ none →
      exec c s = .next (finish (offer (.commandRefused false code h.sequence .busy) s)))) ∧
  (∀ (h : CommandHead) (code : Byte) (s : State), unknownCode code = true →
    (s.Takes h → exec (.unknownCommand h code) s = .next (finish (s.replied h code .unknown []))) ∧
    (s.repeater = false → h.group = true → s.command.slot = none →
      exec (.unknownCommand h code) s =
        .next (finish (offer (.commandRefused false code h.sequence .unknown) s)))) ∧
  ∀ (c d : Instr) (h g : CommandHead) (code : Byte) (body : List Byte) (s : State),
    c.desk = some (h, code) → d.desk = some (g, code) → commandBody c = some body →
    commandBody d = some body → g.group = true → g.sequence = h.sequence → s.Takes h →
    8 < code.toNat → code ≠ 28 →
    ∃ t, exec c s = .next t ∧
      (t.command.slot = none → ∃ status contents,
        t.loop.replies = s.loop.replies ++ [⟨h.sequence, status, code :: status.code :: contents⟩] ∧
        let u := { t with loop := { t.loop with replies := s.loop.replies } }
        exec d s = .next (if status = .done then u
          else offer (.commandRefused false code g.sequence status) u)) ∧
      (∀ e, t.command.slot = some e → t.loop.replies = s.loop.replies ∧ e.group = false ∧
        exec d s = .next
          { t with command := { t.command with slot := some { e with group := true } } })

/-- R25, R26, R48, R123 and R160: each read command that names something is answered DONE with its
contents and changes nothing but the reply queue; a STATUS_READ with its clear flag then sets the
seven loop counters to 0 and leaves the lost flag, and a held slot does not stop it (R19). The bytes
that have no value and the bits with no name are 0 by the model's choice (log entries 43 and 44). -/
def Obligations.ReadsAnswer : Prop :=
  (∀ (h : CommandHead) (s : State), s.repeater = false → h.group = false → 0 < freeReplies s →
    exec (.statusRead h 1) s =
      .next (finish ((s.replied h 1 .done (statusBlock s)).counted fun _ => .zero))) ∧
  ∀ (h : CommandHead) (x : Lane) (p : Position) (k : Slot) (g : Fin 4) (s : State), s.Takes h →
    exec (.statusRead h 0) s = .next (finish (s.replied h 1 .done (statusBlock s))) ∧
    exec (.accountRead h (Lane.code x)) s =
      .next (finish (s.replied h 2 .done (accountRecord x s))) ∧
    exec (.settlementRead h (Lane.code x)) s = .next (finish (s.replied h 3 .done
      (match (s.acct x).last with
        | some r => 1 :: r.bytes
        | none => [0]))) ∧
    exec (.rosterRead h) s = .next (finish (s.replied h 4 .done (rosterContents s))) ∧
    (∀ c, scoreContents k g s = some c →
      exec (.scoreRead h (slotByte k) (BitVec.ofNat 8 g.val)) s =
        .next (finish (s.replied h 5 .done c))) ∧
    (s.bowler k = none →
      exec (.scoreRead h (slotByte k) (BitVec.ofNat 8 g.val)) s =
        .next (finish (s.replied h 5 .range []))) ∧
    exec (.stationRead h (positionCode p)) s =
      .next (finish (s.replied h 6 .done (stationEntry p (s.station p).state s))) ∧
    exec (.transitRead h) s = .next (finish (s.replied h 7 .done (transitContents s)))

/-- R180: the check catches every change of a single byte's worth of bits in one place: two frames
whose covered bytes differ in exactly one byte have different checks. -/
def Obligations.CheckCatchesByte : Prop :=
  ∀ (before after : List Byte) (a b : Byte), a ≠ b →
    crc16 (before ++ a :: after) ≠ crc16 (before ++ b :: after)

/-! ### Tables -/

/-- R28: a TIMING record installs its fourteen values, each clamped to its range; it is DONE when
every value lies within its range and DONE_CLAMPED otherwise, and a record of another length is
refused with RANGE and changes nothing. -/
def Obligations.TimingLoaded : Prop :=
  ∀ (h : CommandHead) (record : List Byte) (s : State), s.Takes h →
    (record.length ≠ 28 →
      exec (.tableLoadTiming h record) s = .next (finish (s.replied h 9 .range []))) ∧
    (record.length = 28 →
      let v := word16 record
      let c := fun low high i => max low (min high (v i))
      let t : Timing :=
        { settle := c 500 6000 0, scanTimeout := c 1000 5000 1, cycleTimeout := c 4000 30000 2,
          flightTimeout := c 3000 20000 3, pitTimeout := c 5000 30000 4,
          trackTimeout := c 5000 60000 5, foulWindow := c 200 3000 6, foulLamp := c 1 10 7,
          idleCutoff := c 10 600 8, closeTimeout := c 10 300 9, gateDistance := c 500 2500 10,
          roundPeriod := c 2 20 11, missLimit := c 1 7 12, foulStuck := c 2 30 13 }
      let within := 500 ≤ v 0 ∧ v 0 ≤ 6000 ∧ 1000 ≤ v 1 ∧ v 1 ≤ 5000 ∧ 4000 ≤ v 2 ∧
        v 2 ≤ 30000 ∧ 3000 ≤ v 3 ∧ v 3 ≤ 20000 ∧ 5000 ≤ v 4 ∧ v 4 ≤ 30000 ∧ 5000 ≤ v 5 ∧
        v 5 ≤ 60000 ∧ 200 ≤ v 6 ∧ v 6 ≤ 3000 ∧ 1 ≤ v 7 ∧ v 7 ≤ 10 ∧ 10 ≤ v 8 ∧ v 8 ≤ 600 ∧
        10 ≤ v 9 ∧ v 9 ≤ 300 ∧ 500 ≤ v 10 ∧ v 10 ≤ 2500 ∧ 2 ≤ v 11 ∧ v 11 ≤ 20 ∧ 1 ≤ v 12 ∧
        v 12 ≤ 7 ∧ 2 ≤ v 13 ∧ v 13 ≤ 30
      let s' := { s with command := { s.command with timing := t } }
      (within → exec (.tableLoadTiming h record) s = .next (finish (s'.replied h 9 .done []))) ∧
      (¬within →
        exec (.tableLoadTiming h record) s = .next (finish (s'.replied h 9 .doneClamped []))))

/-- R30: TABLE_LOAD GROUPS. A list of up to 15 ids in 1..15 replaces the group set with exactly its
members, an id listed twice entering once; after an empty list the part is in group 0 alone; a list
of more, or with another id, or whose count is wrong, is refused with RANGE. -/
def Obligations.GroupsLoaded : Prop :=
  ∀ (h : CommandHead) (n : Byte) (ids : List Byte) (s : State), s.Takes h →
    let fits := ids.length = n.toNat ∧ n.toNat ≤ 15 ∧ ∀ i ∈ ids, 1 ≤ i.toNat ∧ i.toNat ≤ 15
    (fits → ∃ g : BitVec 16,
      (∀ k, k < 16 → (g.getLsbD k = true ↔ ∃ i ∈ ids, i.toNat = k)) ∧
      (ids = [] → ∀ b : Byte,
        inGroup b { s with loop := { s.loop with groups := g } } = true → b = 0) ∧
      exec (.tableLoadGroups h (n :: ids)) s =
        .next (finish ({ s with loop := { s.loop with groups := g } }.replied h 9 .done []))) ∧
    (¬fits → exec (.tableLoadGroups h (n :: ids)) s = .next (finish (s.replied h 9 .range [])))

/-- R165 and R166: a RATES record that is accepted replaces the table and its header, with the
header clamped, and clamps a held band index to the new table in the same event; one that is not is
refused with RANGE and the old table stands. -/
def Obligations.RatesLoaded : Prop :=
  ∀ (h : CommandHead) (n minimum increment : Byte) (entries : List Byte) (s : State), s.Takes h →
    let bands := bandArgs n.toNat entries
    let fits := entries.length = 8 * n.toNat ∧ 1 ≤ n.toNat ∧ n.toNat ≤ 6 ∧
      (∀ b ∈ bands, b.start ≤ 1439) ∧ bands.Pairwise (fun a b => a.start < b.start)
    let clamped := 240 < minimum.toNat ∨ increment.toNat < 1 ∨ 60 < increment.toNat
    (fits → ∃ t, exec (.tableLoadRates h (n :: minimum :: increment :: entries)) s = .next t ∧
      t.account.rates = ⟨min 240 minimum.toNat, max 1 (min 60 increment.toNat), bands⟩ ∧
      t.account.bandHold = s.account.bandHold.map (fun i => min i (n.toNat - 1)) ∧
      t.account.accounts = s.account.accounts ∧ t.account.centre = s.account.centre ∧
      t.seqs = s.seqs ∧ t.roster = s.roster ∧ t.score = s.score ∧ t.transit = s.transit ∧
      (clamped → t.loop = (s.replied h 9 .doneClamped []).loop) ∧
      (¬clamped → t.loop = (s.replied h 9 .done []).loop)) ∧
    (¬fits → exec (.tableLoadRates h (n :: minimum :: increment :: entries)) s =
      .next (finish (s.replied h 9 .range [])))

/-- R29 and R64. A lines record is installed with its filter counts clamped to 2..7; one that
changes no polarity and no enable touches no line. Otherwise each line is looked at again under the
new record, with its accepted level, run and waiting acceptances kept: a FOUL line whose detection
goes off, and a line that a new polarity makes inactive, stop their stuck timer and leave their
stuck state with LINE_FAULT; a line that a new polarity makes active, and an active FOUL line whose
detection goes on, start it; and a new polarity that makes ESTOP active sets the latch, which no
load clears. -/
def Obligations.LinesLoaded : Prop :=
  (∀ (h : CommandHead) (counts : Lines Byte) (s : State), s.Takes h →
    let old := s.command.lines
    let pol := fun l => if (old.settings.get l).polarity = .high then (1 : Byte) else 0
    let pair := fun l => [pol l, counts.get l]
    let clamp := fun l => max 2 (min 7 (counts.get l).toNat)
    let within := ∀ l, 2 ≤ (counts.get l).toNat ∧ (counts.get l).toNat ≤ 7
    let record := pair (.foul .A) ++ pair (.foul .B) ++ pair (.launch .A) ++ pair (.launch .B) ++
      pair (.pit .A) ++ pair (.pit .B) ++ pair .estop ++ [flagByte [old.foulOn.a, old.foulOn.b]]
    ∃ t, exec (.tableLoadLines h record) s = .next t ∧ t.command.lines.foulOn = old.foulOn ∧
      (∀ l, t.command.lines.settings.get l = ⟨(old.settings.get l).polarity, clamp l⟩) ∧
      t.line.lines = s.line.lines ∧ t.line.estop = s.line.estop ∧ t.seqs = s.seqs ∧
      t.transit = s.transit ∧ t.command.timing = s.command.timing ∧
      (within → t.loop = (s.replied h 9 .done []).loop) ∧
      (¬within → t.loop = (s.replied h 9 .doneClamped []).loop)) ∧
  ∀ (h : CommandHead) (pols : Lines Level) (counts : Lines Byte) (on : LanePair Bool) (s : State),
    s.Takes h →
    let old := s.command.lines
    let pair := fun l => [if pols.get l = .high then (1 : Byte) else 0, counts.get l]
    let record := pair (.foul .A) ++ pair (.foul .B) ++ pair (.launch .A) ++ pair (.launch .B) ++
      pair (.pit .A) ++ pair (.pit .B) ++ pair .estop ++ [flagByte [on.a, on.b]]
    ∃ t, exec (.tableLoadLines h record) s = .next t ∧ t.command.lines.foulOn = on ∧
      (∀ l, t.command.lines.settings.get l =
        ⟨pols.get l, max 2 (min 7 (counts.get l).toNat)⟩) ∧
      (∀ l, l ≠ .estop →
        let st := s.line.lines.get l
        let turned := (old.settings.get l).polarity ≠ pols.get l
        let was : Bool := match l with | .foul x => old.foulOn.get x | _ => true
        let now : Bool := match l with | .foul x => on.get x | _ => true
        let length := match l with
          | .foul _ => s.command.timing.foulStuck * 1000
          | _ => 5000
        let active := st.accepted = some (pols.get l)
        let off := (was = true ∧ now = false) ∨
          (turned ∧ st.accepted = some (pols.get l).flip)
        let starts := ¬(was = true ∧ now = false) ∧ now = true ∧ active ∧ (turned ∨ was = false)
        t.line.lines.get l =
          (if off then { st with stuckTimer := none, stuck := false }
            else if starts then { st with stuckTimer := some (s.now + length) }
            else st) ∧
        (off → st.stuck = true → s.loop.notices.length ≤ 6 →
          ⟨.lineFault l false, s.now⟩ ∈ t.loop.notices) ∧
        (∀ x, l = .pit x → (t.seq x).pitStuck =
          (if off ∧ st.stuck = true then false else (s.seq x).pitStuck))) ∧
      t.line.lines.get .estop = s.line.lines.get .estop ∧
      (t.line.estop = true ↔ s.line.estop = true ∨
        ((old.settings.get .estop).polarity ≠ pols.get .estop ∧
          (s.line.lines.get .estop).accepted = some (pols.get .estop)))

/-! ### Sessions, bands and overrides -/

/-- R125, R126 and R161. SESSION_SET replaces the whole record and sets the team lane record while
every roster slot is empty; it is refused with STATE when one is occupied, and with RANGE for a
games limit above 20, which is not clamped. SESSION_END is refused with STATE unless both accounts
are CLOSED; when it is DONE every roster slot, queue, list and bowler record is gone, the certified
flag is clear, the session record is kept, and each lane holds NO_BOWLER exactly when its practice
flag is clear, and no HANDOVER. -/
def Obligations.SessionsSetAndEnded : Prop :=
  ∀ (h : CommandHead) (m : Mode) (f : Format) (limit : Byte) (x : Lane) (s : State), s.Takes h →
    let i : Instr := .sessionSet h m.code f.code limit (Lane.code x)
    (20 < limit.toNat → exec i s = .next (finish (s.replied h 10 .range []))) ∧
    (limit.toNat ≤ 20 → (∃ k, s.entry k ≠ none) →
      exec i s = .next (finish (s.replied h 10 .state []))) ∧
    (limit.toNat ≤ 20 → (∀ k, s.entry k = none) →
      exec i s = .next (finish ({ s with roster :=
        { s.roster with session := ⟨m, f, limit.toNat, x⟩, team1Lane := x } }.replied h 10 .done [])))
      ∧
    (¬s.BothClosed → exec (.sessionEnd h) s = .next (finish (s.replied h 11 .state []))) ∧
    (s.BothClosed → ∃ t, exec (.sessionEnd h) s = .next t ∧
      (∀ k, t.entry k = none ∧ t.bowler k = none) ∧ t.roster.queues = .both [] ∧
      t.roster.handover1 = [] ∧ t.roster.handover2 = [] ∧
      t.roster.session = s.roster.session ∧ t.roster.team1Lane = s.roster.session.crossStart ∧
      t.roster.practice = s.roster.practice ∧ t.score.certified = false ∧
      (∀ y, (t.seq y).holds.handover = false ∧
        (t.seq y).holds.noBowler = !s.roster.practice.get y) ∧
      t.account = s.account ∧ t.command = s.command ∧ t.time = s.time ∧
      t.loop = (s.replied h 11 .done []).loop)

/-- R159, R51 and R73: CERTIFY sets the certified flag; CALL_ACK clears the call demand of its lane;
OVERRIDE sets or removes the desk driver of PAIR_POWER (line 0) or RETURN_MOTOR (line 1) and refuses
every other line. Each is DONE in every state of the part and changes nothing else. -/
def Obligations.FlagsByCommand : Prop :=
  ∀ (h : CommandHead) (x : Lane) (line : Byte) (s : State), s.Takes h →
    exec (.certify h) s =
      .next (finish ({ s with score := { s.score with certified := true } }.replied h 12 .done [])) ∧
    exec (.callAck h (Lane.code x)) s = .next (finish ({ s with link :=
      { s.link with call := s.link.call.set x false } }.replied h 22 .done [])) ∧
    (∀ p : Byte × Option Bool, p = (0, some false) ∨ p = (1, some true) ∨ p = (2, none) →
      exec (.override h 0 p.1) s = .next (finish ({ s with line :=
        { s.line with powerOverride := p.2 } }.replied h 23 .done [])) ∧
      exec (.override h 1 p.1) s = .next (finish ({ s with line :=
        { s.line with motorOverride := p.2 } }.replied h 23 .done [])) ∧
      (2 ≤ line.toNat →
        exec (.override h line p.1) s = .next (finish (s.replied h 23 .range []))))

/-- R166 and R7: BAND_HOLD as a command and as a broadcast. An index within the table is held, one
beyond it takes the last entry, with an empty table the index is held as given, and a release makes
the hold absent. The command that clamps is DONE_CLAMPED; the broadcast raises no notice, and asks
nothing of the command slot or the reply queue. -/
def Obligations.BandHeld : Prop :=
  ∀ (h : CommandHead) (i any : Byte) (s : State),
    let n := s.account.rates.bands.length
    let held := if n = 0 ∨ i.toNat < n then i.toNat else n - 1
    let st : Status := if n = 0 ∨ i.toNat < n then .done else .doneClamped
    let put := fun v => { s with account := { s.account with bandHold := v } }
    (s.Takes h →
      exec (.bandHold h 1 i) s = .next (finish ((put (some held)).replied h 24 st [])) ∧
      exec (.bandHold h 0 any) s = .next (finish ((put none).replied h 24 .done []))) ∧
    (s.repeater = false →
      exec (.broadcastBandHold (some i)) s = .next (finish (put (some held))) ∧
      exec (.broadcastBandHold none) s = .next (finish (put none)))

/-- R79 and R7: HOLD puts DESK into the lane's set or takes it out, and the CENTRE_HOLD topic
does the same with CENTRE on both lanes; the other reasons, the accounts, the roster, the scores,
the queues of the loop apart from HOLD's reply, and the time base stay.

R79, R80 and R81: a reason added to a READY lane takes it to HELD at once, with the guard DOWN,
and on to the lift of the balls in its pit if there are any: CYCLING with LIFT_ONLY out once it
has its places, LIFT_WAIT until then; the places are said where nothing else waits for places and
the other lane begins no lift in the same event, and CENTRE_HOLD where the head of the waiter
list cannot be granted, as every step leaves it (TrackFitsKept). The last reason taken from a
HELD lane takes it to READY, with the guard UP. In every other state, and where the reason was
there already or was not there, the lane's state, orders and cell stay. The broadcast asks nothing
of the command slot or the reply queue. -/
def Obligations.HoldReasonsChange : Prop :=
  ∀ (h : CommandHead) (x : Lane) (v : Bool) (s : State),
    let lifts := fun (y : Lane) (had : Bool) => v = true ∧ had = false ∧
      (s.seq y).state = .ready ∧ (s.laneTransit y).pitHold ≠ []
    (s.Takes h → ∃ t, exec (.hold h (Lane.code x) (if v = true then 1 else 0)) s = .next t ∧
      (t.seq x).holds = { (s.seq x).holds with desk := v } ∧
      (t.seq x.other).holds = (s.seq x.other).holds ∧ t.account = s.account ∧
      t.roster = s.roster ∧ t.score = s.score ∧ t.command = s.command ∧ t.time = s.time ∧
      t.loop = (s.replied h 29 .done []).loop ∧ s.HoldMade x .desk v t ∧
      (lifts x (s.seq x).holds.desk → s.transit.waiters = [] → s.LiftBegins x t) ∧
      (s.transit.waiters = [] ∨ ¬lifts x (s.seq x).holds.desk →
        t.seq x.other = s.seq x.other)) ∧
    (s.repeater = false → ∃ t, exec (.centreHold v) s = .next t ∧
      (∀ y, (t.seq y).holds = { (s.seq y).holds with centre := v }) ∧ t.account = s.account ∧
      t.roster = s.roster ∧ t.score = s.score ∧ t.command = s.command ∧ t.time = s.time ∧
      t.loop = s.loop ∧ (s.HeadWaits → ∀ y, s.HoldMade y .centre v t) ∧
      ∀ y, lifts y (s.seq y).holds.centre → ¬lifts y.other (s.seq y.other).holds.centre →
        s.transit.waiters = [] → s.LiftBegins y t)

/-! ### Accounts -/

/-- R167: LANE_OPEN. STATE unless the account is CLOSED; then RANGE for a practice lane that is
not PER_TIME; then NO_RATES with the table empty; otherwise the account takes its fields, with
the credit and the warn amount clamped to 9,999,999, its meter, counts and flags start at zero
and its last settlement is kept, the sequencer and the roster take the practice flag, and the
other lane's account stays. Under PER_TIME the first minute is then charged (R168): at the hour
price of the band in force, up to the credit, which locks the account where it is used up, with
the warn test on a lane with credit. Under another method the UP bowler is examined for charge
points (R141), and the account stands as it was opened where there is none. That a warn amount of
FFFFFFFF is clamped like any other is the model's choice (log entry 21).

R85, the sequencer's share: the practice flag is copied and park pending is clear. A PARKED lane
whose pinsetter is READY starts: at once in FAULT, with FULL_SET as its resume order, where a
standing cause stands (ESTOP, PIT_x stuck, a station condition, in this order), and otherwise
STARTING with a FULL_SET that has its places or waits for them; one whose pinsetter is not READY,
as none is on a QUIET link, which the opening wakes first, stays PARKED with start pending.
PARKING keeps start pending; CYCLING and STARTING go on without it; FAULT and RECOVER have
FULL_SET as their resume order, but for a RECOVER that has issued PARK, which keeps start
pending. -/
def Obligations.LaneOpens : Prop :=
  ∀ (h : CommandHead) (x : Lane) (m : Method) (p : Bool) (credit warn : BitVec 32) (s : State),
    s.Takes h →
    let i : Instr := .laneOpen h (Lane.code x) m.code (if p = true then 1 else 0) credit warn
    let limit := 9999999
    let amount := creditArg credit
    let clamped := limit < amount.getD 0 ∨ limit < warn.toNat
    let fresh : Account :=
      { Account.initial with
        state := .opened, method := m, practice := p, credit := amount.map (min limit)
        warn := min limit warn.toNat, openedAt := stampedMinute s, last := (s.acct x).last }
    let hour := (bandInForce s).hour
    ((s.acct x).state ≠ .closed → exec i s = .next (finish (s.replied h 13 .state []))) ∧
    ((s.acct x).state = .closed → p = true → m ≠ .perTime →
      exec i s = .next (finish (s.replied h 13 .range []))) ∧
    ((s.acct x).state = .closed → ¬(p = true ∧ m ≠ .perTime) → s.account.rates.bands = [] →
      exec i s = .next (finish (s.replied h 13 .noRates []))) ∧
    ((s.acct x).state = .closed → ¬(p = true ∧ m ≠ .perTime) → s.account.rates.bands ≠ [] →
      ∃ t, exec i s = .next t ∧
        ((t.acct x).state = .opened ∨ (t.acct x).state = .locked) ∧ (t.acct x).method = m ∧
        (t.acct x).practice = p ∧ (t.acct x).credit = amount.map (min limit) ∧
        (t.acct x).warn = min limit warn.toNat ∧ (t.acct x).openedAt = stampedMinute s ∧
        (t.acct x).last = (s.acct x).last ∧ (t.acct x).stoppageMinutes = 0 ∧
        (t.acct x).forced = false ∧ (t.acct x).writeOffs = false ∧ (t.acct x).closeTimer = none ∧
        (m = .perTime → amount = none → t.acct x = { fresh with
          minutesBilled := 1, meter := min 599999940 hour
          saturated := decide (599999940 < hour) }) ∧
        (∀ a, amount = some a → m = .perTime →
          let c := min limit a
          let meter := if hour = 0 then 0 else min hour (c * 60)
          t.acct x = { fresh with
            minutesBilled := 1, meter := meter, warned := decide (c - meter / 60 < fresh.warn)
            state := if 0 < hour ∧ meter = c * 60 then .locked else .opened }) ∧
        (m ≠ .perTime →
          (∀ k, (s.roster.queues.get x).head? = some k → s.NoCharge k) →
          t.acct x = fresh) ∧
        (t.seq x).practice = p ∧
        (let q := s.seq x
         let ready := s.link.state ≠ .quiet ∧ (s.station (.pin x)).state = .ready
         let balls := (s.laneTransit x).pitHold.length
         let u := t.seq x
         u.parkPending = false ∧
         (q.state = .parked → ¬ready → u.state = .parked ∧ u.startPending = true) ∧
         (q.state = .parked → ready → u.startPending = false ∧
           (s.line.estop = true → u.state = .fault ∧ u.fault = some ⟨.estop, none⟩) ∧
           (s.line.estop = false → q.pitStuck = true →
             u.state = .fault ∧ u.fault = some ⟨.trigger, none⟩) ∧
           (s.line.estop = false → q.pitStuck = false → q.condition ≠ 0 →
             u.state = .fault ∧ u.fault = some ⟨.station, some q.condition⟩) ∧
           (s.line.estop = true ∨ q.pitStuck = true ∨ q.condition ≠ 0 →
             u.resume = some .fullSet) ∧
           (s.line.estop = false → q.pitStuck = false → q.condition = 0 →
             s.transit.waiters = [] → u.state = .starting ∧
             (s.transit.fault = none → balls ≤ freePlaces s.transit → u.place = none ∧
               u.order.map (·.order) = some .fullSet ∧ (t.laneTransit x).reservation = balls) ∧
             (s.transit.fault ≠ none ∨ freePlaces s.transit < balls →
               u.place = some ⟨balls, .fullSet⟩ ∧ t.transit.waiters = [⟨x, balls⟩]))) ∧
         (q.state = .parking → u.state = .parking ∧ u.startPending = true) ∧
         (q.state = .cycling ∨ q.state = .starting →
           u.state = q.state ∧ u.order = q.order ∧ u.startPending = false) ∧
         (q.state = .fault → u.state = .fault ∧ u.resume = some .fullSet ∧
           u.startPending = false) ∧
         (q.state = .recover → u.state = .recover ∧ u.order = q.order ∧
           (q.order.map (·.order) = some .park → u.startPending = true ∧ u.resume = q.resume) ∧
           (q.order.map (·.order) ≠ some .park → u.startPending = false ∧
             u.resume = some .fullSet))) ∧
        t.roster.practice = s.roster.practice.set x p ∧
        t.acct x.other = s.acct x.other ∧ t.account.rates = s.account.rates ∧
        t.link.state ≠ .quiet ∧ t.score = s.score ∧
        t.loop.replies = s.loop.replies ++
          [⟨h.sequence, if clamped then .doneClamped else .done,
            [13, if clamped then 1 else 0]⟩])

/-- R174, R175 and R141: LANE_CLOSE. STATE on an account that is CLOSED or CLOSING; then, without
force, IN_PLAY with a game in progress in its cover. Otherwise, with balls of the lane still in
the records, the account is CLOSING, CLOSING joins the hold-reason set and CREDIT leaves it if
the account was LOCKED, any pending charge is cancelled, the close timer runs, the close watch
stands, and the command holds the slot without a reply. On a lane clear of balls the close
completes in the same event: the account is CLOSED, its settlement by R176 and R177 is the last
one, SETTLEMENT is offered, and the command is answered DONE with the record (R175, steps 4 to
6). By R100 the lane has the park: from READY and HELD, from BALL_OUT, SETTLE and SCAN with the
scored ball dropped and a SCAN withdrawn, and from LIFT_WAIT without its place request, it is in
PARKING with PARK issued; in CYCLING and STARTING it runs on with the park pending; in RECOVER
and FAULT the resume order is PARK. Under force each game in progress in the cover (the lane's
queue, or in CROSS mode every occupied slot) is discarded, its game-charged flag is cleared, the
bowler keeps his place, and the forced flag is set. That this comes before the account enters
CLOSING is the model's choice (log entry 37), which shows only where an UP bowler with a
withdrawal pending leaves; none does here. -/
def Obligations.LaneCloses : Prop :=
  ∀ (h : CommandHead) (x : Lane) (force : Bool) (s : State), s.Takes h →
    let i : Instr := .laneClose h (Lane.code x) (if force = true then 1 else 0)
    let covered := fun k => if s.roster.session.mode = .cross then s.entry k ≠ none
      else k ∈ s.roster.queues.get x
    let given := fun k => force = true ∧ covered k ∧ gameInProgress k s = true
    let forced := (s.acct x).forced || (force && playInCover x s)
    ((s.acct x).state = .closed ∨ (s.acct x).state = .closing →
      exec i s = .next (finish (s.replied h 14 .state []))) ∧
    ((s.acct x).state = .opened ∨ (s.acct x).state = .locked →
      (force = false → playInCover x s = true →
        exec i s = .next (finish (s.replied h 14 .inPlay []))) ∧
      (playInCover x s = true ↔ ∃ k, covered k ∧ gameInProgress k s = true) ∧
      (force = true ∨ playInCover x s = false → (force = true → s.NoneLeaves) →
        laneClear x s.transit = false →
        ∃ t, exec i s = .next t ∧
          t.acct x = { s.acct x with
            state := .closing, pending := none, forced := forced
            closeTimer := some (s.now + s.command.timing.closeTimeout * 1000) } ∧
          t.acct x.other = s.acct x.other ∧ (t.laneTransit x).closeWatch = true ∧
          (t.seq x).holds = { (s.seq x).holds with
            closing := true
            credit := if (s.acct x).state = .locked then false else (s.seq x).holds.credit } ∧
          t.command = { s.command with slot := some ⟨14, h.sequence, false, .closing x⟩ } ∧
          t.loop = s.loop ∧ t.roster.queues = s.roster.queues ∧
          (∀ k, given k →
            t.bowler k = (s.bowler k).map (fun b => { b with current := [], bonuses := [] }) ∧
            t.entry k = (s.entry k).map (fun e => { e with gameCharged := false })) ∧
          (∀ k, ¬given k → t.bowler k = s.bowler k ∧ t.entry k = s.entry k)) ∧
      (force = true ∨ playInCover x s = false → (force = true → s.NoneLeaves) →
        laneClear x s.transit = true →
        ∃ t r, exec i s = .next t ∧ (t.acct x).state = .closed ∧
          (t.acct x).last = some r ∧
          r = settlement x (s.modAcct x fun a => { a with forced := forced }) ∧
          r.lane = x ∧ r.method = (s.acct x).method ∧
          r.closedAt = stampedMinute s ∧ r.credit = (s.acct x).credit ∧ r.forced = forced ∧
          (t.acct x).closeTimer = none ∧ t.command.slot = none ∧
          (t.seq x).holds.closing = false ∧
          ((s.seq x).state = .held →
            (t.seq x).state = .parking ∧ t.acct x.other = s.acct x.other) ∧
          (s.NoneLeaves → t.acct x.other = s.acct x.other ∧
            (t.laneTransit x).closeWatch = false ∧
            (t.station (.con x)).cell = some (.con .closed) ∧
            s.Parks x { (s.seq x).holds with
              closing := false
              credit := if (s.acct x).state = .locked then false else (s.seq x).holds.credit } t ∧
            t.loop = ((offer (.settlement r) s).replied h 14 .done r.bytes).loop) ∧
          t.loop.replies = s.loop.replies ++ [⟨h.sequence, .done, 14 :: 0 :: r.bytes⟩]))

/-- R176 and R177. A PER_TIME settlement bills the minutes rounded up to a multiple of the
increment, or the minimum where that is more, and prices the extra minutes in the band in force. The
charge is the meter with them, rounded up to a whole cent, exactly when that is within the lane's
credit, or within 9,999,999 on an open tab; beyond it the charge is that bound, which is CLAMPED on
a lane with credit and SATURATED on an open tab, as a saturated account is. A PER_GAME or PER_BOWLER
settlement charges the meter divided by 60, an exact division where the meter is whole cents, bills
no minutes and is SATURATED as the account is. The other fields are the account's own and the
closed-at of this moment. -/
def Obligations.SettlementRounds : Prop :=
  (∀ (x : Lane) (s : State), (s.acct x).method = .perTime → 0 < s.account.rates.increment →
    let a := s.acct x
    let r := settlement x s
    let extra := (r.minutesBilled - a.minutesBilled) * (bandInForce s).hour
    (∃ m, s.account.rates.increment ∣ m ∧ a.minutesBilled ≤ m ∧
      m < a.minutesBilled + s.account.rates.increment ∧
      r.minutesBilled = max s.account.rates.minimum m) ∧
    let sum := a.meter + extra
    let bound := a.credit.getD 9999999
    (sum ≤ 60 * bound → sum ≤ 60 * r.charge ∧ 60 * r.charge < sum + 60) ∧
    (60 * bound < sum → r.charge = bound) ∧
    (r.clamped = true ↔ ∃ c, a.credit = some c ∧ 60 * c < sum) ∧
    (r.saturated = true ↔
      a.saturated = true ∨ (a.credit = none ∧ 60 * 9999999 < sum))) ∧
  (∀ (x : Lane) (s : State), (s.acct x).method ≠ .perTime →
    let a := s.acct x
    let r := settlement x s
    60 * r.charge ≤ a.meter ∧ a.meter < 60 * r.charge + 60 ∧
    (60 ∣ a.meter → 60 * r.charge = a.meter) ∧
    r.minutesBilled = 0 ∧ r.clamped = false ∧ r.saturated = a.saturated) ∧
  ∀ (x : Lane) (s : State),
    let a := s.acct x
    let r := settlement x s
    r.lane = x ∧ r.method = a.method ∧ r.openedAt = a.openedAt ∧ r.closedAt = stampedMinute s ∧
    r.stoppageMinutes = a.stoppageMinutes ∧ r.gamesCharged = a.gamesCharged ∧
    r.bowlersCharged = a.bowlersCharged ∧ r.credit = a.credit ∧ r.forced = a.forced ∧
    r.writeOffs = a.writeOffs

/-- R170 to R173: CREDIT_ADD. STATE on a CLOSED account or an open tab; RANGE for the absent code of
money (log entry 21); otherwise the credit rises by the amount, stopping at 9,999,999, which is
DONE_CLAMPED. On an OPEN or CLOSING account nothing but the warn test follows. A LOCKED account
unlocks, with CREDIT out of the hold-reason set and UNLOCK offered, when it is PER_TIME and its
meter is below the new credit, and else when the new credit covers its pending charge, which is then
made; otherwise it stays LOCKED. Last comes the warn test: the account is warned exactly when what
is left is below the warn amount, with CREDIT_LOW at the change. The other account stays. -/
def Obligations.CreditAdded : Prop :=
  ∀ (h : CommandHead) (x : Lane) (amount : BitVec 32) (s : State), s.Takes h →
    let i : Instr := .creditAdd h (Lane.code x) amount
    ((s.acct x).state = .closed ∨ (s.acct x).credit = none →
      exec i s = .next (finish (s.replied h 15 .state []))) ∧
    (∀ c, (s.acct x).state ≠ .closed → (s.acct x).credit = some c →
      (amount = 0xFFFFFFFF → exec i s = .next (finish (s.replied h 15 .range []))) ∧
      (amount ≠ 0xFFFFFFFF →
        let clamped := 9999999 < c + amount.toNat
        let sum := min 9999999 (c + amount.toNat)
        let a := s.acct x
        let room := s.loop.notices.length ≤ 12
        let left := fun t : State => sum - (t.acct x).meter / 60
        let stays := fun t : State => (t.acct x).state = .locked ∧ (t.acct x).meter = a.meter ∧
          (t.acct x).pending = a.pending ∧ t.seqs = s.seqs ∧ t.roster = s.roster
        let unlocks := fun t : State => (t.acct x).state = .opened ∧
          (t.seq x).holds = { (s.seq x).holds with credit := false } ∧
          (room → ⟨.unlock x .creditAdded, s.now⟩ ∈ t.loop.notices)
        ∃ t, exec i s = .next t ∧ (t.acct x).credit = some sum ∧
          t.acct x.other = s.acct x.other ∧ t.score = s.score ∧ t.command = s.command ∧
          t.loop.replies = s.loop.replies ++ [⟨h.sequence, if clamped then .doneClamped else .done,
            [15, if clamped then 1 else 0]⟩] ∧
          (a.state = .opened ∨ a.state = .closing →
            (t.acct x).state = a.state ∧ (t.acct x).meter = a.meter ∧
            t.seqs = s.seqs ∧ t.transit = s.transit ∧ t.roster = s.roster) ∧
          (t.acct x).warned = decide (left t < a.warn) ∧
          (a.warned = false → left t < a.warn → room →
            ⟨.creditLow x (left t), s.now⟩ ∈ t.loop.notices) ∧
          (a.state = .locked → a.method = .perTime →
            (a.meter < sum * 60 → unlocks t ∧ (t.acct x).meter = a.meter) ∧
            (sum * 60 ≤ a.meter → stays t)) ∧
          (a.state = .locked → a.method ≠ .perTime →
            (a.pending = none → stays t) ∧
            (∀ k kind, a.pending = some ⟨k, kind⟩ →
              let price := match kind with
                | .game => (bandInForce s).game
                | .bowler => (bandInForce s).bowler
              (sum * 60 - a.meter < price * 60 → stays t) ∧
              (price * 60 ≤ sum * 60 - a.meter → unlocks t ∧ (t.acct x).pending = none ∧
                (t.acct x).meter = a.meter + price * 60 ∧
                t.entry k = (s.entry k).map (fun e => match kind with
                  | .game => { e with gameCharged := true }
                  | .bowler => { e with chargedSession := true }) ∧
                (kind = .game →
                  (t.acct x).gamesCharged = min 65535 (a.gamesCharged + 1)) ∧
                (kind = .bowler →
                  (t.acct x).bowlersCharged = min 65535 (a.bowlersCharged + 1)))))))

/-- R168 to R170, R172 and R173: the billing tick. It is taken in every state in which its time has
come, the next one comes 60,000 ms later (R163), and it does for each lane by itself, whichever is
looked at first: an account that is CLOSED is left alone; a lane in FAULT or under the ESTOP latch
counts a stoppage minute and is charged nothing; an OPEN PER_TIME account is charged one minute at
the hour price of the band in force, up to its credit, and locks when that is used, with CREDIT in
its hold-reason set and LOCK offered; a LOCKED or CLOSING PER_TIME account is charged nothing; and a
LOCKED account of another method tries its pending charge again, and unlocks once it is covered.
CREDIT_LOW is offered when what is left has come below the warn amount. -/
def Obligations.BillingTicks : Prop :=
  ∀ s : State, s.time.nextTick ≤ s.now →
    ∃ t, exec .billingTick s = .next t ∧
      t.time = { s.time with nextTick := s.time.nextTick + 60000 } ∧ t.score = s.score ∧
      t.command = s.command ∧ t.loop.replies = s.loop.replies ∧
      t.account.rates = s.account.rates ∧
      ∀ x : Lane,
        let a := s.acct x
        let b := t.acct x
        let band := bandInForce s
        let room := s.repeater = false ∧ s.loop.notices.length ≤ 12
        let stopped := (s.seq x).state = .fault ∨ s.line.estop = true
        let minutes := min 65535 (a.minutesBilled + 1)
        (a.state = .closed → b = a) ∧
        (a.state ≠ .closed → stopped →
          b = { a with stoppageMinutes := min 65535 (a.stoppageMinutes + 1) }) ∧
        (¬stopped → a.method = .perTime →
          (a.state = .locked ∨ a.state = .closing → b = a) ∧
          (a.state = .opened → a.credit = none → b = { a with
            minutesBilled := minutes, meter := min 599999940 (a.meter + band.hour)
            saturated := a.saturated || decide (599999940 < a.meter + band.hour) }) ∧
          (∀ c, a.state = .opened → a.credit = some c →
            let meter := if band.hour = 0 then a.meter else min (a.meter + band.hour) (c * 60)
            let used := 0 < band.hour ∧ meter = c * 60
            let left := c - meter / 60
            b = { a with
              minutesBilled := minutes, meter := meter, warned := decide (left < a.warn)
              state := if used then .locked else .opened } ∧
            (used → (t.seq x).holds.credit = true ∧
              (room → ⟨.lock x .creditUsed, s.now⟩ ∈ t.loop.notices)) ∧
            (¬used → (t.seq x).holds = (s.seq x).holds) ∧
            (a.warned = false → left < a.warn → room →
              ⟨.creditLow x left, s.now⟩ ∈ t.loop.notices))) ∧
        (¬stopped → a.method ≠ .perTime →
          (a.state ≠ .locked ∨ a.pending = none → b = a) ∧
          (∀ k kind, a.state = .locked → a.pending = some ⟨k, kind⟩ →
            let n := 60 * match kind with
              | .game => band.game
              | .bowler => band.bowler
            (a.covers n = false → b = a) ∧
            (a.covers n = true → b.state = .opened ∧ b.pending = none ∧ b.credit = a.credit ∧
              b.meter = (if a.credit = none then min 599999940 (a.meter + n) else a.meter + n) ∧
              (kind = .game → b.gamesCharged = min 65535 (a.gamesCharged + 1) ∧
                ∀ e, t.entry k = some e → e.gameCharged = true) ∧
              (kind = .bowler → b.bowlersCharged = min 65535 (a.bowlersCharged + 1) ∧
                ∀ e, t.entry k = some e → e.chargedSession = true) ∧
              (t.seq x).holds = { (s.seq x).holds with credit := false } ∧
              (room → ⟨.unlock x .chargeMade, s.now⟩ ∈ t.loop.notices))))

/-! ### The roster and the scores -/

/-- R127, R128, R139, R140 and R169: ROSTER_ADD. A target of the wrong kind for the mode is RANGE
and an occupied slot FULL; that it is RANGE where both hold is the model's choice (log entry 58). In
OPEN mode the slot joins the tail of the named lane's queue, and in
CROSS mode, while its team is not in HANDOVER, the tail of its team's lane queue; it is UP in an
empty queue and WAITING otherwise, with a new bowler record. With a bowler in the queue, or on an
account that is not OPEN or is PER_TIME, no charge point acts. UP in the empty queue of an OPEN
PER_GAME or PER_BOWLER account, the bowler is charged in either mode where the account covers the
price, and otherwise the charge is pending and the account LOCKED.

R127, R132, R133 and R138: in CROSS mode, while its team is in HANDOVER and the other team is
PLAYING, so that no swap is made, the slot joins the tail of its team's handover list, HANDOVER, on
its team's lane, which is held for HANDOVER; no queue changes and no charge point acts. -/
def Obligations.BowlersAdded : Prop :=
  ∀ (h : CommandHead) (k : Slot) (s : State), s.Takes h →
    let joins := fun (target : Byte) (team : Option Team) (x : Lane) =>
      ∃ t, exec (.rosterAdd h (slotByte k) target) s = .next t ∧
        t.entry k = some ⟨if s.roster.queues.get x = [] then .up else .waiting, team, x, 0, false,
          false, false⟩ ∧
        t.roster.queues = s.roster.queues.set x (s.roster.queues.get x ++ [k]) ∧
        t.bowler k = some .new ∧
        (∀ j, j ≠ k → t.entry j = s.entry j ∧ t.bowler j = s.bowler j) ∧
        t.account = s.account ∧ t.command = s.command ∧ t.time = s.time ∧
        t.loop = (s.replied h 16 .done []).loop
    let charged := fun (target : Byte) (team : Option Team) (x : Lane) =>
      let a := s.acct x
      let game := decide (a.method = .perGame)
      let n := 60 * if game = true then (bandInForce s).game else (bandInForce s).bowler
      ∃ t, exec (.rosterAdd h (slotByte k) target) s = .next t ∧
        t.roster.queues = s.roster.queues.set x [k] ∧ t.bowler k = some .new ∧
        (∀ j, j ≠ k → t.entry j = s.entry j ∧ t.bowler j = s.bowler j) ∧
        t.acct x.other = s.acct x.other ∧
        t.loop.replies = s.loop.replies ++ [⟨h.sequence, .done, [16, 0]⟩] ∧
        (a.covers n = true →
          t.entry k = some ⟨.up, team, x, 0, false, !game, game⟩ ∧
          (t.acct x).state = .opened ∧ (t.acct x).pending = a.pending ∧
          (t.acct x).meter =
            (if a.credit = none then min 599999940 (a.meter + n) else a.meter + n) ∧
          (game = true → (t.acct x).gamesCharged = min 65535 (a.gamesCharged + 1)) ∧
          (game = false → (t.acct x).bowlersCharged = min 65535 (a.bowlersCharged + 1))) ∧
        (a.covers n = false →
          let kind := if game = true then ChargeKind.game else .bowler
          t.entry k = some ⟨.up, team, x, 0, false, false, false⟩ ∧
          t.acct x = { a with state := .locked, pending := some ⟨k, kind⟩ } ∧
          (t.seq x).holds.credit = true ∧
          (offer (.lock x (.chargePending k kind)) s).loop.notices <+: t.loop.notices)
    let placed := fun (target : Byte) (team : Option Team) (x : Lane) =>
      (s.roster.queues.get x ≠ [] ∨ (s.acct x).state ≠ .opened ∨ (s.acct x).method = .perTime →
        joins target team x) ∧
      (s.roster.queues.get x = [] → (s.acct x).state = .opened → (s.acct x).method ≠ .perTime →
        charged target team x)
    let teamByte : Team → Byte := fun m => if m = .one then 2 else 3
    (∀ x, s.roster.session.mode = .opened →
      (∀ target : Byte, 2 ≤ target.toNat →
        exec (.rosterAdd h (slotByte k) target) s = .next (finish (s.replied h 16 .range []))) ∧
      (s.entry k ≠ none → exec (.rosterAdd h (slotByte k) (Lane.code x)) s =
        .next (finish (s.replied h 16 .full []))) ∧
      (s.entry k = none → placed (Lane.code x) none x)) ∧
    (∀ m, s.roster.session.mode = .cross →
      (∀ target : Byte, target.toNat < 2 ∨ 3 < target.toNat →
        exec (.rosterAdd h (slotByte k) target) s = .next (finish (s.replied h 16 .range []))) ∧
      (s.entry k ≠ none → exec (.rosterAdd h (slotByte k) (teamByte m)) s =
        .next (finish (s.replied h 16 .full []))) ∧
      (s.entry k = none → s.roster.inHandover m = false →
        placed (teamByte m) (some m) (s.roster.teamLane m)) ∧
      (s.entry k = none → s.roster.inHandover m = true →
        s.roster.queues.get (s.roster.teamLane m.other) ≠ [] →
        let x := s.roster.teamLane m
        ∃ t, exec (.rosterAdd h (slotByte k) (teamByte m)) s = .next t ∧
          t.entry k = some ⟨.handover, some m, x, 0, false, false, false⟩ ∧
          t.roster.handover m = s.roster.handover m ++ [k] ∧
          t.roster.handover m.other = s.roster.handover m.other ∧
          t.roster.queues = s.roster.queues ∧ t.roster.team1Lane = s.roster.team1Lane ∧
          t.bowler k = some .new ∧
          (∀ j, j ≠ k → t.entry j = s.entry j ∧ t.bowler j = s.bowler j) ∧
          (t.seq x).holds.handover = true ∧ t.account = s.account ∧ t.command = s.command ∧
          t.loop = (s.replied h 16 .done []).loop))

/-- R135: ROSTER_MOVE. STATE in CROSS mode, for a slot that is empty, DONE or WITHDRAWN, for the
bowler's present lane, for an UP bowler with a ball in the current frame, and for one whose game is
charged and holds no ball. Otherwise the bowler goes from his queue to the tail of the named lane's
queue, UP where it was empty and WAITING where it has others in it. A WAITING bowler who stays
WAITING changes nothing else; one who becomes UP in an empty queue takes NO_BOWLER from that lane,
and leaves it on the other exactly when nobody is left there and it is no practice lane. With an UP
bowler who leaves, a charge pending for him is cancelled, a
LOCKED account unlocks, the next of his queue is UP, and NO_BOWLER stands on the lane he left
exactly when nobody is left on it and it is no practice lane. Here no bowler who becomes UP is at a
charge point (R139). -/
def Obligations.BowlersMoved : Prop :=
  ∀ (h : CommandHead) (k : Slot) (x : Lane) (s : State), s.Takes h →
    let i : Instr := .rosterMove h (slotByte k) (Lane.code x)
    (s.entry k = none → exec i s = .next (finish (s.replied h 17 .state []))) ∧
    ∀ e, s.entry k = some e →
      (s.roster.session.mode = .cross ∨ e.status = .done ∨ e.status = .withdrawn ∨ e.lane = x ∨
          (e.status = .up ∧ ballInFrame e.lane k s = true) ∨
          (e.gameCharged = true ∧ gameEmpty k s = true) →
        exec i s = .next (finish (s.replied h 17 .state []))) ∧
      (s.roster.session.mode = .opened → e.status = .waiting → e.lane = x.other →
        e.gameCharged = false ∨ gameEmpty k s = false →
        (s.roster.queues.get x).filter (· ≠ k) ≠ [] →
        ∃ t, exec i s = .next t ∧ t.entry k = some { e with lane := x } ∧
          t.roster.queues.get x = (s.roster.queues.get x).filter (· ≠ k) ++ [k] ∧
          t.roster.queues.get x.other = (s.roster.queues.get x.other).filter (· ≠ k) ∧
          (∀ j, j ≠ k → t.entry j = s.entry j) ∧ t.score = s.score ∧ t.account = s.account ∧
          t.command = s.command ∧ t.time = s.time ∧ t.loop = (s.replied h 17 .done []).loop) ∧
      (s.roster.session.mode = .opened → e.status = .waiting → e.lane = x.other →
        e.gameCharged = false ∨ gameEmpty k s = false →
        (s.roster.queues.get x).filter (· ≠ k) = [] →
        gameEmpty k s = false ∨ (s.acct x).state ≠ .opened ∨ (s.acct x).method = .perTime →
        let left := (s.roster.queues.get x.other).filter (· ≠ k)
        ∃ t, exec i s = .next t ∧ t.entry k = some { e with lane := x, status := .up } ∧
          t.roster.queues.get x = [k] ∧ t.roster.queues.get x.other = left ∧
          (∀ j, j ≠ k → t.entry j = s.entry j) ∧ t.score = s.score ∧ t.account = s.account ∧
          t.command = s.command ∧ t.time = s.time ∧ (t.seq x).holds.noBowler = false ∧
          (t.seq x.other).holds.noBowler = (!s.roster.practice.get x.other && left.isEmpty) ∧
          t.loop = (s.replied h 17 .done []).loop) ∧
      (∀ rest, s.roster.session.mode = .opened → e.status = .up → e.lane = x.other →
        ballInFrame e.lane k s = false → e.gameCharged = false ∨ gameEmpty k s = false →
        s.roster.queues.get e.lane = k :: rest → k ∉ rest →
        s.roster.handover1 = [] → s.roster.handover2 = [] →
        (∀ j, rest.head? = some j → s.NoCharge j) →
        let queue := (s.roster.queues.get x).filter (· ≠ k)
        queue ≠ [] ∨ gameEmpty k s = false ∨ (s.acct x).state ≠ .opened ∨
          (s.acct x).method = .perTime →
        ∃ t, exec i s = .next t ∧
          t.entry k = some { e with lane := x, status := if queue = [] then .up else .waiting } ∧
          t.roster.queues.get x = queue ++ [k] ∧ t.roster.queues.get e.lane = rest ∧
          (∀ j, rest.head? = some j →
            t.entry j = (s.entry j).map fun e => { e with status := .up }) ∧
          (∀ j, j ≠ k → rest.head? ≠ some j → t.entry j = s.entry j) ∧
          t.score = s.score ∧ t.command = s.command ∧ t.time = s.time ∧
          t.acct x = s.acct x ∧ s.Cancels e.lane k t ∧
          (t.seq x).holds.noBowler = false ∧
          (t.seq e.lane).holds.noBowler = (!s.roster.practice.get e.lane && rest.isEmpty) ∧
          t.loop.replies = (s.replied h 17 .done []).loop.replies)

/-- R136: ROSTER_WITHDRAW. STATE for a slot that is empty, DONE or WITHDRAWN; DONE and no change
with the withdrawal already pending; the flag alone for an UP bowler with a ball in the frame; and a
WAITING or HANDOVER bowler leaves at once: WITHDRAWN on his lane, out of every queue and list, with
his current game discarded and his stored games kept. So does an UP bowler with no ball in the
frame: a charge pending for him is cancelled, a LOCKED account unlocks, and the next of his queue,
here at no charge point (R139), is UP; NO_BOWLER stands on the lane exactly when nobody is left on
it, it is no practice lane and no team is in HANDOVER. A queue still holds a bowler, or the mode is
OPEN, so that no teams swap. -/
def Obligations.BowlersWithdrawn : Prop :=
  ∀ (h : CommandHead) (k : Slot) (s : State), s.Takes h →
    let i : Instr := .rosterWithdraw h (slotByte k)
    let out := fun q : List Slot => q.filter (· ≠ k)
    (s.entry k = none → exec i s = .next (finish (s.replied h 18 .state []))) ∧
    ∀ e, s.entry k = some e →
      (e.status = .done ∨ e.status = .withdrawn →
        exec i s = .next (finish (s.replied h 18 .state []))) ∧
      (e.status ≠ .done → e.status ≠ .withdrawn → e.pendingWithdraw = true →
        exec i s = .next (finish (s.replied h 18 .done []))) ∧
      (e.status = .up → e.pendingWithdraw = false → ballInFrame e.lane k s = true →
        exec i s = .next (finish
          ((s.modEntry k fun e => { e with pendingWithdraw := true }).replied h 18 .done []))) ∧
      (e.status = .waiting ∨ e.status = .handover → e.pendingWithdraw = false →
        s.roster.session.mode = .opened ∨ (∃ y, out (s.roster.queues.get y) ≠ []) →
        ∃ t, exec i s = .next t ∧
          t.entry k = some { e with status := .withdrawn, gameCharged := false } ∧
          t.roster.queues = ⟨out s.roster.queues.a, out s.roster.queues.b⟩ ∧
          t.roster.handover1 = out s.roster.handover1 ∧
          t.roster.handover2 = out s.roster.handover2 ∧
          t.bowler k = (s.bowler k).map (fun b => { b with current := [], bonuses := [] }) ∧
          (∀ j, j ≠ k → t.entry j = s.entry j ∧ t.bowler j = s.bowler j) ∧
          t.account = s.account ∧ t.command = s.command ∧
          t.loop = (s.replied h 18 .done []).loop) ∧
      (∀ rest, e.status = .up → e.pendingWithdraw = false → ballInFrame e.lane k s = false →
        s.roster.queues.get e.lane = k :: rest → k ∉ rest →
        s.roster.session.mode = .opened ∨ (∃ y, out (s.roster.queues.get y) ≠ []) →
        (∀ j, rest.head? = some j → s.NoCharge j) →
        ∃ t, exec i s = .next t ∧
          t.entry k = some { e with status := .withdrawn, gameCharged := false } ∧
          t.roster.queues = ⟨out s.roster.queues.a, out s.roster.queues.b⟩ ∧
          t.roster.handover1 = out s.roster.handover1 ∧
          t.roster.handover2 = out s.roster.handover2 ∧
          t.bowler k = (s.bowler k).map (fun b => { b with current := [], bonuses := [] }) ∧
          (∀ j, rest.head? = some j →
            t.entry j = (s.entry j).map fun e => { e with status := .up }) ∧
          (∀ j, j ≠ k → t.bowler j = s.bowler j ∧
            (rest.head? ≠ some j → t.entry j = s.entry j)) ∧
          t.command = s.command ∧ t.acct e.lane.other = s.acct e.lane.other ∧
          s.Cancels e.lane k t ∧
          (s.roster.handover1 = [] → s.roster.handover2 = [] →
            (t.seq e.lane).holds.noBowler = (!s.roster.practice.get e.lane && rest.isEmpty)) ∧
          t.loop.replies = (s.replied h 18 .done []).loop.replies)

/-- R134 and R170: SKIP. STATE when the queue holds fewer than two slots or the UP bowler has a ball
in the current frame; otherwise the first two change places, the former UP bowler is WAITING and the
other UP. A charge pending for the former UP bowler is cancelled, and a LOCKED account unlocks. Here
the new UP bowler is at no charge point (R139).

R131, R130 and R126: the frame end of the UP bowler, with other bowlers to come. He is WITHDRAWN
where a withdrawal is pending, and his game is discarded unless it has just ended; else DONE where
he has played the games limit; else, in OPEN mode, WAITING at the tail of the queue, and in CROSS
mode in HANDOVER at the tail of his team's list. The new head of the queue is UP.

R131, R128, R133 and R138: the frame end of a bowler alone on his lane. In OPEN mode, where he does
not leave, he is the head and UP again; otherwise his queue is empty, and in CROSS mode, with the
other lane's queue empty and a handover list not, the teams swap, so that a bowler alone in the
session is UP on the other lane. NO_BOWLER then stands on a lane exactly when it is no practice
lane, its queue is empty and its team is not in HANDOVER, and HANDOVER exactly when its team is.

R132 and R133: the swap. In CROSS mode with no lane queue and a handover list not empty, each list
is the queue of the lane opposite its team's, the lists are empty, the team lanes change over, and
each bowler of a list has his new lane and is UP at its head and WAITING behind; otherwise no queue,
list or entry changes. -/
def Obligations.SkipSwaps : Prop :=
  (∀ (h : CommandHead) (x : Lane) (s : State), s.Takes h →
    let i : Instr := .skip h (Lane.code x)
    ((s.roster.queues.get x).length < 2 → exec i s = .next (finish (s.replied h 19 .state []))) ∧
    ∀ a b rest, s.roster.queues.get x = a :: b :: rest →
      (ballInFrame x a s = true → exec i s = .next (finish (s.replied h 19 .state []))) ∧
      (ballInFrame x a s = false → a ≠ b →
        gameEmpty b s = false ∨ (∀ e, s.entry b = some e → e.gameCharged = true) →
        ∃ t, exec i s = .next t ∧ t.roster.queues = s.roster.queues.set x (b :: a :: rest) ∧
          t.entry a = (s.entry a).map (fun e => { e with status := .waiting }) ∧
          t.entry b = (s.entry b).map (fun e => { e with status := .up }) ∧
          (∀ j, j ≠ a → j ≠ b → t.entry j = s.entry j) ∧ t.score = s.score ∧
          t.command = s.command ∧ t.acct x.other = s.acct x.other ∧
          t.loop.replies = (s.replied h 19 .done []).loop.replies ∧
          ((∀ c, (s.acct x).pending = some c → c.slot ≠ a) →
            t.seqs = s.seqs ∧ t.account = s.account ∧ t.transit = s.transit ∧
            t.loop = (s.replied h 19 .done []).loop) ∧
          (∀ kind, (s.acct x).pending = some ⟨a, kind⟩ →
            ((s.acct x).state = .locked →
              t.acct x = { s.acct x with pending := none, state := .opened } ∧
              (t.seq x).holds = { (s.seq x).holds with credit := false } ∧
              (offer (.unlock x .chargeCancelled) s).loop.notices <+: t.loop.notices) ∧
            ((s.acct x).state ≠ .locked →
              t.acct x = { s.acct x with pending := none } ∧ t.seqs = s.seqs)))) ∧
  (∀ (x : Lane) (k : Slot) (gameEnd : Bool) (s : State) (rest : List Slot) (e : RosterEntry),
    s.roster.queues.get x = k :: rest → k ∉ rest → rest ≠ [] → s.entry k = some e →
    let t := frameEnds x k gameEnd s
    let r := s.roster.session
    let played := 0 < r.limit ∧ r.limit ≤ e.games
    let status := (t.entry k).map (·.status)
    let leaves := t.roster.queues = s.roster.queues.set x rest
    (∀ j, (t.roster.queues.get x).head? = some j →
      (t.entry j).map (·.status) = (s.entry j).map (fun _ => .up)) ∧
    (e.pendingWithdraw = true → status = some .withdrawn ∧ leaves ∧
      (t.entry k).map (·.pendingWithdraw) = some false ∧
      (gameEnd = false → t.bowler k =
        (s.bowler k).map (fun b => { b with current := [], bonuses := [] }) ∧
        (t.entry k).map (·.gameCharged) = some false)) ∧
    (e.pendingWithdraw = false → played → status = some .done ∧ leaves ∧
      t.bowler k = s.bowler k) ∧
    (e.pendingWithdraw = false → ¬played → r.mode = .opened → status = some .waiting ∧
      t.roster.queues = s.roster.queues.set x (rest ++ [k]) ∧ t.bowler k = s.bowler k) ∧
    (∀ m, e.pendingWithdraw = false → ¬played → r.mode = .cross → e.team = some m →
      status = some .handover ∧ leaves ∧ t.roster.handover m = s.roster.handover m ++ [k] ∧
      t.bowler k = s.bowler k)) ∧
  (∀ (x : Lane) (k : Slot) (gameEnd : Bool) (m : Team) (s : State) (e : RosterEntry),
    s.roster.queues.get x = [k] → s.entry k = some e →
    (s.roster.session.mode = .cross → e.team = some m) →
    k ∉ s.roster.handover1 → k ∉ s.roster.handover2 →
    let t := frameEnds x k gameEnd s
    let r := s.roster.session
    let out := e.pendingWithdraw = true ∨ (0 < r.limit ∧ r.limit ≤ e.games)
    let stays := ¬out ∧ r.mode = .opened
    let list := fun n : Team =>
      s.roster.handover n ++ if ¬out ∧ r.mode = .cross ∧ n = m then [k] else []
    let swaps := r.mode = .cross ∧ s.roster.queues.get x.other = [] ∧
      (list .one ≠ [] ∨ list .two ≠ [])
    (stays → t.roster.queues = s.roster.queues ∧ (t.entry k).map (·.status) = some .up ∧
      (s.NoCharge k → t.entry k = some { e with status := .up } ∧ t.account = s.account)) ∧
    (out → (t.entry k).map (fun e => (e.status, e.pendingWithdraw)) =
      some (if e.pendingWithdraw = true then .withdrawn else .done, false)) ∧
    (¬stays → ¬swaps → t.roster.queues = s.roster.queues.set x [] ∧
      (∀ n, t.roster.handover n = list n) ∧ t.roster.team1Lane = s.roster.team1Lane ∧
      (¬out → (t.entry k).map (·.status) = some .handover) ∧ t.account = s.account) ∧
    (swaps → (list .one ++ list .two).Nodup → ∀ n,
      let y := (s.roster.teamLane n).other
      t.roster.queues.get y = list n ∧ t.roster.handover n = [] ∧ t.roster.teamLane n = y ∧
      ∀ j ∈ list n, (t.entry j).map (fun e => (e.status, e.lane)) =
        (s.entry j).map (fun _ => (if (list n).head? = some j then .up else .waiting, y))) ∧
    t.bowler k = (if e.pendingWithdraw = true ∧ gameEnd = false then
      (s.bowler k).map (fun b => { b with current := [], bonuses := [] }) else s.bowler k) ∧
    (∀ j, j ≠ k → t.bowler j = s.bowler j ∧
      (¬swaps ∨ (j ∉ list .one ∧ j ∉ list .two) → t.entry j = s.entry j)) ∧
    ∀ y,
      let waits := r.mode = .cross ∧ t.roster.queues.get y = [] ∧
        ∃ n, t.roster.teamLane n = y ∧ t.roster.handover n ≠ []
      ((t.seq y).holds.handover = true ↔ waits) ∧
      ((t.seq y).holds.noBowler = true ↔
        s.roster.practice.get y = false ∧ t.roster.queues.get y = [] ∧ ¬waits)) ∧
  ∀ s : State,
    let l1 := s.roster.handover1
    let l2 := s.roster.handover2
    let y := s.roster.team1Lane
    let swaps := s.roster.session.mode = .cross ∧ s.roster.queues = .both [] ∧
      (l1 ≠ [] ∨ l2 ≠ [])
    let t := settleRoster s
    (¬swaps → t.roster = s.roster) ∧
    (swaps → (l1 ++ l2).Nodup →
      t.roster.queues.get y = l2 ∧ t.roster.queues.get y.other = l1 ∧
      t.roster.handover1 = [] ∧ t.roster.handover2 = [] ∧ t.roster.team1Lane = y.other ∧
      t.roster.session = s.roster.session ∧
      (∀ p ∈ [(l1, y.other), (l2, y)], ∀ k ∈ p.1,
        (t.entry k).map (fun e => (e.status, e.lane)) =
          (s.entry k).map (fun _ => (if p.1.head? = some k then .up else .waiting, p.2))) ∧
      (∀ k, k ∉ l1 → k ∉ l2 → t.entry k = s.entry k))

/-- R144 to R154: a ball result. Without a bowler it changes nothing and asks for a new rack.
Otherwise the ball is the next ball of the current frame, with its pinfall, value and marks by R145
and R146; the frame, and in frame 10 the game, ends by R147 and R148; each bonus wait falls by one,
a frame whose wait is over scores 10 and its bonus values, one that ends open the sum of its values,
one that ends with a strike or a spare waits for 2 balls or 1, and every running total is the one
before it and the frame's score. BALL is offered; at the game end the game is stored first of at
most three, the series rises by its total and GAME_END is offered after BALL. Both dirty lists take
the slot's 44 items at a game end, and else the ball's frame and each frame whose score or running
total it set, and nothing else. The disposition is R154's. The current game is one that the play
makes, as every step keeps it (MetersFitKept), and no withdrawal is pending.

R155 to R158: SCORE_CORRECT from the desk, in either format. RANGE for arguments outside their
ranges and for a bowler, game, frame or ball that is not there; STATE for the frame in progress;
then the before count and the tests of R156, over racks read from the balls as they stand (the
model's choice, log entry 39); that in NINE_TAP a first ball of 9 on a full rack counts 10 in the
new sum is the model's reading (log entry 12). A first ball of an open frame in TENPIN is said
outright too. Accepted, the named ball and the second ball of its rack change by R157; a score that
was present is worked out again by R149, one that was absent stays so, and the running totals follow
by R150. A stored game takes its new total and the series the difference, where it covers the old
total and R151's limit is not passed. CORRECTION carries the old and the new pinfall and the new
totals. The dirty lists take the corrected frame, each frame whose score or running total changed,
the four TOTALs where a stored game's total did, and nothing else. -/
def Obligations.CorrectionsApplied : Prop :=
  (∀ (r : BallResult) (s : State), s.bowler r.slot = none → ballResult r s = (s, .newRack)) ∧
  (∀ (r : BallResult) (g : Bowler) (s : State), s.bowler r.slot = some g →
    r.after.within r.before = true →
    (∀ e, s.entry r.slot = some e → e.pendingWithdraw = false) →
    let t := (ballResult r s).1
    let old := currentBalls g.current
    let n := currentFrame g.current
    n ≤ 10 →
    (∀ a, old.head? = some a → a.marks.spare = false) →
    (∀ w ∈ g.bonuses, 1 ≤ w.needed ∧ 1 ≤ w.frame ∧ w.frame < n) →
    let fell := r.before.count - r.after.count
    let first := rackFirst old old.length
    let strike := first = true ∧ r.foul = false ∧ r.before.count = 10 ∧
      ((s.roster.session.format = .tenPin ∧ r.after.count = 0) ∨
        (s.roster.session.format = .nineTap ∧ 9 ≤ fell))
    let spare := first = false ∧ r.foul = false ∧ r.after.count = 0 ∧
      (old.getLast?).map (·.before) = some 10
    let b : BallEntry :=
      { before := r.before.count, pinfall := fell
        value := if r.foul = true then 0 else if strike then 10 else fell
        marks := ⟨decide strike, decide spare, r.foul, isSplit r.foul r.before r.after,
          decide (r.foul = false ∧ fell = 0)⟩
        speed := r.speed, inferred := r.inferred, doubt := r.doubt }
    let balls := old ++ [b]
    let ends :=
      (n < 10 ∧ (strike ∨ 2 ≤ balls.length ∨ (r.foul = false ∧ r.after.count = 0))) ∨
        3 ≤ balls.length ∨ (10 ≤ n ∧ old.map (·.marks.strike) = [false] ∧ ¬spare)
    let last := ends ∧ n = 10
    let waits := if ¬ends ∨ 10 ≤ n then [] else if strike then [⟨n, 2⟩]
      else if spare then [⟨n, 1⟩] else []
    let totalled := fun frames : List FrameRecord =>
      ∀ j < frames.length, (frames[j]?).bind (·.total) =
        (((frames[j]?).bind (·.score)).bind fun v =>
          ((if j = 0 then some 0 else (frames[j - 1]?).bind (·.total)).map (· + v)))
    let recorded := fun frames : List FrameRecord =>
      frames.length = n ∧ (frames[n - 1]?).map (·.balls) = some balls ∧ totalled frames ∧
      (∀ j < n - 1, (frames[j]?).map (·.balls) = (g.current[j]?).map (·.balls)) ∧
      (∀ j < n - 1, ⟨j + 1, 1⟩ ∉ g.bonuses →
        (frames[j]?).bind (·.score) = (g.current[j]?).bind (·.score)) ∧
      (∀ w ∈ g.bonuses, w.needed = 1 → w.frame < 10 →
        let later := ((frames.drop w.frame).flatMap (·.balls)).map (·.value)
        ∀ fr, g.current[w.frame - 1]? = some fr →
          (∀ a, fr.balls = [a] → a.marks.strike = true →
            (frames[w.frame - 1]?).bind (·.score) = some (10 + (later.take 2).sum)) ∧
          (∀ a c, fr.balls = [a, c] → a.marks.strike = false → c.marks.spare = true →
            (frames[w.frame - 1]?).bind (·.score) = some (10 + (later.take 1).sum))) ∧
      (frames[n - 1]?).bind (·.score) =
        (if ends ∧ waits = [] then some ((balls.map (·.value)).sum) else none)
    let ball := fun frames : List FrameRecord => offer
      (.ball r.lane r.slot n balls.length b ((frames[n - 1]?).bind (·.score))
        ((frames[n - 1]?).bind (·.total))) s
    (¬last → ∃ w, t.bowler r.slot = some w ∧ recorded w.current ∧ w.stored = g.stored ∧
      w.series = g.series ∧
      w.bonuses = ((g.bonuses.map fun v => { v with needed := v.needed - 1 }).filter
        fun v => v.needed ≠ 0) ++ waits ∧
      (ball w.current).loop.notices <+: t.loop.notices ∧
      ∀ (y : Lane) (i : Item), i ∈ t.link.dirty.get y ↔ i ∈ s.link.dirty.get y ∨
        ∃ j < 10, i = ⟨r.slot, 0, .frame (j + 1)⟩ ∧ (j + 1 = n ∨
          (w.current[j]?).bind (·.score) ≠ (g.current[j]?).bind (·.score) ∨
          (w.current[j]?).bind (·.total) ≠ (g.current[j]?).bind (·.total))) ∧
    (last → ∃ w, t.bowler r.slot = some w ∧ w.current = [] ∧ w.bonuses = [] ∧
      ∃ game, w.stored = game :: g.stored.take 2 ∧ recorded game.frames ∧
      (∀ total, (game.frames[9]?).bind (·.total) = some total →
        game.total = total ∧
        (g.series + total ≤ 4294967295 → w.series = g.series + total ∧
          (offer (.gameEnd r.slot total (min 65535 (g.series + total)))
            (ball game.frames)).loop.notices <+: t.loop.notices)) ∧
      ∀ y, ∀ i ∈ slotItems r.slot, i ∈ t.link.dirty.get y) ∧
    (ballResult r s).2 =
      (if ends ∨ strike ∨ spare ∨ (r.foul = false ∧ r.after.count = 0) then .newRack
        else if (if r.foul = true then r.before else r.after) = PinSet.full then .newRack
        else .sameRack (if r.foul = true then r.before else r.after))) ∧
  (∀ (h : CommandHead) (k : Slot) (g : Fin 4) (f n : Byte) (s : State), s.Takes h →
    let i := fun ball : Byte => Instr.scoreCorrect h (slotByte k) (BitVec.ofNat 8 g.val) f ball n
    (∀ ball : Byte, f = 0 ∨ 10 < f.toNat ∨ ball = 0 ∨ 3 < ball.toNat ∨ 10 < n.toNat ∨
        s.bowler k = none →
      exec (i ball) s = .next (finish (s.replied h 20 .range []))) ∧
    ∀ (w : Bowler) (frames : List FrameRecord) (a b : BallEntry) (sc tot : Option Nat),
      s.bowler k = some w → w.game g = some frames → 1 ≤ f.toNat → f.toNat ≤ 10 →
      frames[f.toNat - 1]? = some ⟨[a, b], sc, tot⟩ → s.roster.session.format = .tenPin →
      ¬(g.val = 0 ∧ currentFrameHasBall w.current = true ∧ f.toNat = currentFrame w.current) →
      a.before = 10 → a.pinfall < 10 → a.marks.strike = false → a.marks.spare = false →
      a.marks.foul = false → b.marks.spare = false →
      (n.toNat + b.pinfall ≤ 10 → n.toNat + b.value ≤ 9 → n.toNat ≤ 9 →
        ∃ t w' frames', exec (i 1) s = .next t ∧ t.bowler k = some w' ∧
          w'.game g = some frames' ∧ frames'.length = frames.length ∧
          (frames'[f.toNat - 1]?).map (·.balls) =
            some [{ a with
                pinfall := n.toNat, value := n.toNat
                marks := { a.marks with gutter := decide (n.toNat = 0), split := false } },
              { b with before := 10 - n.toNat }] ∧
          (∀ j, j ≠ f.toNat - 1 →
            (frames'[j]?).map (·.balls) = (frames[j]?).map (·.balls)) ∧
          (∀ j, j ≠ k → t.bowler j = s.bowler j) ∧ t.roster = s.roster ∧ t.seqs = s.seqs ∧
          t.account = s.account ∧
          t.loop.replies = s.loop.replies ++ [⟨h.sequence, .done, [20, 0]⟩]) ∧
      (n.toNat + b.pinfall ≤ 10 → 10 ≤ n.toNat + b.value →
        exec (i 1) s = .next (finish (s.replied h 20 .classChange []))) ∧
      (n.toNat ≤ 10 → 10 < n.toNat + b.pinfall →
        exec (i 1) s = .next (finish (s.replied h 20 .range [])))) ∧
  ∀ (h : CommandHead) (k : Slot) (g : Fin 4) (f ball n : Byte) (w : Bowler) (s : State),
    s.Takes h → s.bowler k = some w → 1 ≤ f.toNat → f.toNat ≤ 10 → 1 ≤ ball.toNat →
    ball.toNat ≤ 3 → n.toNat ≤ 10 →
    let outcome := exec (.scoreCorrect h (slotByte k) (BitVec.ofNat 8 g.val) f ball n) s
    let refused := fun status : Status => outcome = .next (finish (s.replied h 20 status []))
    let inProgress := g.val = 0 ∧ currentFrameHasBall w.current = true ∧
      f.toNat = currentFrame w.current
    let pins := n.toNat
    let p := ball.toNat - 1
    (inProgress → refused .state) ∧
    (¬inProgress → w.game g = none → refused .range) ∧
    ∀ frames : List FrameRecord, w.game g = some frames → ¬inProgress →
      (frames[f.toNat - 1]? = none → refused .range) ∧
      ∀ fr, frames[f.toNat - 1]? = some fr →
        (fr.balls[p]? = none → refused .range) ∧
        ∀ b, fr.balls[p]? = some b →
          let verdict := correctionOutcome s.roster.session.format fr.balls p b pins
          (verdict ≠ .done → refused verdict) ∧
          (verdict = .done → ∃ (t : State) (w' : Bowler) (frames' : List FrameRecord),
            outcome = .next t ∧ t.bowler k = some w' ∧
            w'.game g = some frames' ∧ w'.bonuses = w.bonuses ∧ frames'.length = frames.length ∧
            (∀ j : Nat, (frames'[j]?).map (·.balls) =
              if j = f.toNat - 1 then some (ballsCorrected fr.balls p b pins)
              else (frames[j]?).map (·.balls)) ∧
            (∀ j : Nat, (frames[j]?).bind (·.score) = none → (frames'[j]?).bind (·.score) = none) ∧
            (∀ j < frames.length, (frames[j]?).bind (·.score) ≠ none →
              (frames'[j]?).bind (·.score) = some (scoreByRule frames' j)) ∧
            (∀ j < frames'.length, (frames'[j]?).bind (·.total) =
              ((frames'[j]?).bind (·.score)).bind fun v =>
                (if j = 0 then some 0 else (frames'[j - 1]?).bind (·.total)).map (· + v)) ∧
            (∀ j, j ≠ k → t.bowler j = s.bowler j) ∧
            t.score.certified = s.score.certified ∧ t.roster = s.roster ∧ t.seqs = s.seqs ∧
            t.transit = s.transit ∧ t.account = s.account ∧ t.command = s.command ∧
            let notice := fun shown : Option Nat =>
              t.loop = ((offer (.correction .desk k g.val f.toNat ball.toNat b.pinfall pins shown
                (min w'.series 65535)) s).replied h 20 .done []).loop
            let marked := fun (totals : Prop) (i : Item) => i = ⟨k, g, .frame f.toNat⟩ ∨
              (∃ j < 10, i = ⟨k, g, .frame (j + 1)⟩ ∧
                ((frames'[j]?).bind (·.score) ≠ (frames[j]?).bind (·.score) ∨
                  (frames'[j]?).bind (·.total) ≠ (frames[j]?).bind (·.total))) ∨
              (totals ∧ ∃ y, i = ⟨k, y, .total⟩)
            let marks := fun totals : Prop => ∀ (y : Lane) (i : Item),
              (i ∈ t.link.dirty.get y → i ∈ s.link.dirty.get y ∨ marked totals i) ∧
              ((s.station (.con y)).state ≠ .ready ∨ (s.station (.con y)).slot ≠ none →
                i ∈ s.link.dirty.get y ∨ marked totals i → i ∈ t.link.dirty.get y)
            (g.val = 0 → w'.stored = w.stored ∧ w'.series = w.series ∧
              notice ((frames'.filterMap (·.total)).getLast?) ∧ marks False) ∧
            (∀ old, g.val ≠ 0 → w.stored[g.val - 1]? = some old →
              let total := ((frames'[9]?).bind (·.total)).getD 0
              old.total ≤ w.series → w.series - old.total + total ≤ 4294967295 →
              w'.current = w.current ∧ w'.stored = w.stored.set (g.val - 1) ⟨frames', total⟩ ∧
              w'.series = w.series - old.total + total ∧ notice (some total) ∧
              marks (total ≠ old.total)))

/-! ### Clears -/

/-- R97 and R99: FAULT_CLEAR of a lane that is not in FAULT is STATE. Of a lane in FAULT it is DONE
with every code: the fault record is cleared, FAULT_CLEARED is offered, and the lane enters RECOVER
with its clear step set and its resume record kept. The standing causes are looked at there in their
order. With the ESTOP latch set the lane is in FAULT(ESTOP) again; with PARK to do and a pinsetter
that is not READY it is PARKED, with no park pending; at a LOST pinsetter it is in FAULT(LINK); with
PIT_x stuck in FAULT(TRIGGER); each of these faults keeps the resume record, or takes FULL_SET where
a start is pending (R94), and offers its FAULT after FAULT_CLEARED. A station condition is no cause,
since the clear step is set. With no cause CLEAR is issued: posted with the order timer started at a
pinsetter that is READY with its slot empty, and wanted, with no timer started, at one that is not
READY. -/
def Obligations.LaneFaultCleared : Prop :=
  ∀ (h : CommandHead) (x : Lane) (s : State), s.Takes h →
    let q := s.seq x
    (q.state ≠ .fault →
      exec (.faultClearLane h x) s = .next (finish (s.replied h 21 .state []))) ∧
    (q.state = .fault →
      ∃ t, exec (.faultClearLane h x) s = .next t ∧ s.Recovers x t ∧
        t.account = s.account ∧ t.roster = s.roster ∧ t.score = s.score ∧
        t.loop = (((offer (.faultCleared (.lane x)) s).faultsAgain x).replied h 21 .done []).loop ∧
        (s.causeAtClear x = none ∨ (q.order = none ∧ q.place = none) →
          t.seq x.other = s.seq x.other ∧ t.transit = s.transit))

/-- R118, R69 and R99. FAULT_CLEAR(RETURN) is STATE with no return fault, with the return station
LOST or with its cached condition not OK; otherwise the fault is cleared and FAULT_CLEARED offered.
FAULT_CLEAR(ESTOP) is STATE with the latch clear or the line not inactive, which takes in a line
whose level is unknown (the model's choice, log entry 27); otherwise the latch is cleared,
FAULT_CLEARED is offered, and every frozen transit timer resumes. A lane that is not in FAULT(ESTOP)
stays as it is, and one that is enters RECOVER with its clear step set and its standing causes looked
at, as in LaneFaultCleared. That FAULT_CLEARED comes ahead of the FAULT of such a cause is the
model's choice (log entry 41). A lane with a cause has no order and no place request out here. -/
def Obligations.ReturnAndEstopCleared : Prop :=
  ∀ (h : CommandHead) (s : State), s.Takes h →
    let fit := s.transit.fault ≠ none ∧ (s.station .ret).state ≠ .lost ∧
      ∀ c, (s.station .ret).cache = some c → c.report.condition = 0
    (¬fit → exec (.faultClearReturn h) s = .next (finish (s.replied h 21 .state []))) ∧
    (fit → ∃ t, exec (.faultClearReturn h) s = .next t ∧ t.transit.fault = none ∧
      t.transit.track = s.transit.track ∧ t.transit.rack = s.transit.rack ∧
      t.account = s.account ∧ t.roster = s.roster ∧ t.score = s.score ∧
      (s.transit.waiters = [] → t.seqs = s.seqs) ∧
      t.loop = ((offer (.faultCleared .ret) s).replied h 21 .done []).loop) ∧
    (¬(s.line.estop = true ∧ lineInactive .estop s = true) →
      exec (.faultClearEstop h) s = .next (finish (s.replied h 21 .state []))) ∧
    (s.line.estop = true → lineInactive .estop s = true →
      let stopped := fun x => (s.seq x).state = .fault ∧ ∃ c, (s.seq x).fault = some ⟨.estop, c⟩
      let freed := { s with line := { s.line with estop := false } }
      let caused := fun x => stopped x ∧ freed.causeAtClear x ≠ none
      let cleared := offer (.faultCleared .estop) freed
      (∀ x, caused x → (s.seq x).order = none ∧ (s.seq x).place = none) →
      ∃ t, exec (.faultClearEstop h) s = .next t ∧ t.line.estop = false ∧
        (∀ x, stopped x → freed.Recovers x t) ∧ (∀ x, ¬stopped x → t.seq x = s.seq x) ∧
        t.transit =
          { s.transit.mapTimers (TransitTimer.resume s.now) with frozen := false } ∧
        t.account = s.account ∧ t.roster = s.roster ∧ t.score = s.score ∧
        t.loop.replies = (s.replied h 21 .done []).loop.replies ∧
        cleared.loop.notices <+: t.loop.notices ∧
        ((∀ x, ¬caused x) → t.loop = (cleared.replied h 21 .done []).loop) ∧
        ∀ x, caused x → ¬caused x.other →
          t.loop = ((cleared.faultsAgain x).replied h 21 .done []).loop)

/-! ### The pit link -/

/-- R58: PIT_RESTART, warm and cold. STATE unless both accounts are CLOSED and both sequencers
PARKED; otherwise it holds the slot, cuts off the round, cancels a pending quiet and empties the
order slots, query marks and miss counts. Warm, every position is JOINING and keeps its cell,
baseline and cache; cold, ABSENT, without them, and the next round is 0. A round starts at once,
except within 200 ms of the quiet entry of a link that was not RUNNING. The restart is DONE, and its
slot free, at the close of the last window of its first round. -/
def Obligations.LinkRestarts : Prop :=
  (∀ (h : CommandHead) (cold : Bool) (s : State), s.Takes h →
    let i : Instr := if cold = true then .pitRestartCold h else .pitRestartWarm h
    let n := if cold = true then 0 else s.link.nextRound
    let rest := s.BothClosed ∧ ∀ x, (s.seq x).state = .parked
    let at200 := ∀ e, s.link.quietEntry = some e → e + 200 ≤ s.now
    (¬rest → exec i s = .next (finish (s.replied h 25 .state []))) ∧
    (rest → ∃ t, exec i s = .next t ∧
      t.command = { s.command with slot := some ⟨25, h.sequence, false, .restarting⟩ } ∧
      t.loop = s.loop ∧ t.seqs = s.seqs ∧ t.account = s.account ∧ t.link.quietPending = false ∧
      (∀ p, (t.station p).slot = none ∧ (t.station p).queryMark = false ∧
        (t.station p).misses = 0 ∧
        (cold = true → (t.station p).state = .absent ∧ (t.station p).cell = none ∧
          (t.station p).baseline = none ∧ (t.station p).cache = none) ∧
        (cold = false → (t.station p).state = .joining ∧
          (t.station p).cell = (s.station p).cell ∧
          (t.station p).baseline = (s.station p).baseline ∧
          (t.station p).cache = (s.station p).cache)) ∧
      (s.link.state = .running ∨ at200 →
        t.link.state = .running ∧ t.link.round = some ⟨n, false, .pin .A, false⟩ ∧
        t.link.nextRound = n + 1 ∧
        t.link.roundTimer = some (s.now + s.command.timing.roundPeriod)) ∧
      (s.link.state ≠ .running → ¬at200 →
        t.link.state = .waking ∧ t.link.round = none ∧ t.link.nextRound = n))) ∧
  ∀ (n : BitVec 8) (sequence : Byte) (reported : Bool) (s : State),
    s.link.round = some ⟨n, false, .con .B, reported⟩ →
    s.command.slot = some ⟨25, sequence, false, .restarting⟩ →
    ∃ t, exec (.reportWindowClose (.con .B)) s = .next t ∧ t.link.round = none ∧
      t.command = { s.command with slot := none } ∧ t.link.nextRound = s.link.nextRound ∧
      t.loop.replies = s.loop.replies ++ [⟨sequence, .done, [25, 0]⟩] ∧ t.seqs = s.seqs ∧
      t.account = s.account

/-- R55 and R7: PIT_QUIET and the QUIET topic. With the link QUIET or a quiet round pending they
change nothing; with both accounts CLOSED and both sequencers PARKED they make a quiet round
pending; otherwise the command is STATE and the topic raises COMMAND_REFUSED with it. That the first
case comes before the look at the lanes, and holds of the topic as well, is the model's choice (log
entry 10). The topic asks nothing of the command slot or the reply queue. -/
def Obligations.QuietAccepted : Prop :=
  ∀ (h : CommandHead) (s : State),
    let rest := s.BothClosed ∧ ∀ x, (s.seq x).state = .parked
    let quiet := s.link.state = .quiet ∨ s.link.quietPending = true
    let s' := { s with link := { s.link with quietPending := true, wakeHeld := false } }
    (s.Takes h →
      (quiet → exec (.pitQuiet h) s = .next (finish (s.replied h 26 .done []))) ∧
      (¬quiet → rest → exec (.pitQuiet h) s = .next (finish (s'.replied h 26 .done []))) ∧
      (¬quiet → ¬rest → exec (.pitQuiet h) s = .next (finish (s.replied h 26 .state [])))) ∧
    (s.repeater = false →
      (quiet → exec .broadcastQuiet s = .next (finish s)) ∧
      (¬quiet → rest → exec .broadcastQuiet s = .next (finish s')) ∧
      (¬quiet → ¬rest → exec .broadcastQuiet s =
        .next (finish (offer (.commandRefused true 3 0 .state) s))))

/-- R55 to R57: PIT_WAKE, the WAKE topic and an assertion of the wake line. With the link RUNNING or
WAKING they do nothing to it, but that a pending quiet round holds the wake (on a link that is
WAKING too, which is the model's choice, log entry 9). With the link QUIET every position is
JOINING, with its cell, baseline and cache kept, and its tags to be taken at its next report (the
rejoin mark, the model's own field, log entry 23), and either the first round starts at once, 200 ms
or more after the quiet entry, or the link is WAKING. PIT_WAKE is DONE each time. These two
commands ask nothing of the wake line. The line's assertion is one that a sample tick has left
waiting at the head of its events, or, with none waiting, one made now on a line that stands at
HIGH; on a line that has neither to give, as with none waiting at LOW or at a level not yet known,
its row does nothing: forms that the model's choices of log entries 3 and 4 give. -/
def Obligations.WakesEndQuiet : Prop :=
  let wakes := fun (c : Instr) (own : State → State) (s : State) =>
    (s.link.state ≠ .quiet → s.link.quietPending = false → exec c s = .next (finish (own s))) ∧
    (s.link.state ≠ .quiet → s.link.quietPending = true →
      exec c s = .next (finish (own { s with link := { s.link with wakeHeld := true } }))) ∧
    (s.link.state = .quiet → ∃ t, exec c s = .next t ∧ s.Wakes t ∧
      (∀ p, (t.station p).cell = (s.station p).cell) ∧ t.seqs = s.seqs ∧
      t.account = s.account ∧ t.transit = s.transit ∧ t.command = s.command ∧
      t.loop = (own s).loop ∧ t.line.wake = (own s).line.wake ∧ t.line.lines = s.line.lines)
  (∀ (h : CommandHead) (s : State), s.Takes h →
    wakes (.pitWake h) (fun u => u.replied h 27 .done []) s) ∧
  (∀ s : State, s.repeater = false → wakes .broadcastWake id s) ∧
  ∀ s : State,
    let wake := s.line.wake
    (∀ line : LineState,
      (∃ v time rest, wake.events = ⟨.active, v, time⟩ :: rest ∧
          line = { wake with events := rest }) ∨
        (wake.events = [] ∧ wake.accepted = some .high ∧
          line = { wake with accepted := some .low, run := 0 }) →
      wakes .wakeLine (fun u => { u with line := { u.line with wake := line } }) s) ∧
    ((∀ v time rest, wake.events ≠ ⟨.active, v, time⟩ :: rest) →
      (wake.events = [] → wake.accepted ≠ some .high) → exec .wakeLine s = .next (finish s))

/-- R48: STATION_QUERY sets the query mark of its position and holds the slot; on a QUIET link it
is DONE at once with the cached entry and state QUIET; a position above 4 is RANGE. Once a round
head has carried the mark, it is DONE with the entry of its position at the next good report
there; with state LOST when as many windows have closed without one as the miss limit; and with
state QUIET at the end of a quiet round that no wake is held over (log entry 26). A console's
order slot is served here. That the entry of a window's close shows the position after its own
miss, and the bytes of the entry that have no value and the bits with no name, are the model's
choice (log entries 42 to 44). -/
def Obligations.QueriesWait : Prop :=
  (∀ (h : CommandHead) (p : Position) (s : State), s.Takes h →
    (s.link.state = .quiet → exec (.stationQuery h (positionCode p)) s =
      .next (finish (s.replied h 8 .done (stationEntry p .quiet s)))) ∧
    (s.link.state ≠ .quiet → exec (.stationQuery h (positionCode p)) s =
      .next (finish
        { s.modStation p (fun r => { r with queryMark := true }) with
          command := { s.command with
            slot := some ⟨8, h.sequence, false, .query p false 0⟩ } })) ∧
    ∀ b : Byte, 4 < b.toNat →
      exec (.stationQuery h b) s = .next (finish (s.replied h 8 .range []))) ∧
  ∀ (p : Position) (sequence : Byte) (m : Nat) (n : BitVec 8) (s : State),
    (∀ x, (s.station (.con x)).state = .ready → (s.station (.con x)).slot = none →
      (s.station (.con x)).answer = none ∧ s.link.dirty.get x = []) →
    let ended := fun (t : State) (shown : StationState) => t.command.slot = none ∧
      t.loop.replies =
        s.loop.replies ++ [⟨sequence, .done, 8 :: 0 :: stationEntry p shown t⟩]
    (∀ (quiet : Bool) (rep : Report), s.link.round = some ⟨n, quiet, p, false⟩ →
      s.command.slot = some ⟨8, sequence, false, .query p true m⟩ →
      ∃ t, exec (.reportArrival p rep) s = .next t ∧ ended t (t.station p).state) ∧
    (s.link.round = some ⟨n, false, p, false⟩ →
      s.command.slot = some ⟨8, sequence, false, .query p true m⟩ →
      ∃ t, exec (.reportWindowClose p) s = .next t ∧
        (s.command.timing.missLimit ≤ m + 1 → ended t .lost) ∧
        (m + 1 < s.command.timing.missLimit → t.loop.replies = s.loop.replies ∧
          t.command.slot = some ⟨8, sequence, false, .query p true (m + 1)⟩)) ∧
    (∀ carried, s.link.round = some ⟨n, true, .con .B, true⟩ → s.link.wakeHeld = false →
      s.command.slot = some ⟨8, sequence, false, .query p carried m⟩ →
      ∃ t, exec (.reportWindowClose (.con .B)) s = .next t ∧ ended t .quiet ∧
        (t.station p).queryMark = false ∧ t.link.state = .quiet)

/-- R36, R57: the expiry of the round timer while RUNNING, with the round before complete, and the
end of the quiet minimum while WAKING, start a round: its head carries the next number, the quiet
mark and the query marks that are pending, the marks are then clear, the round timer runs for one
round period, the cell of position 0 leaves with its slot and standing state, and its report window
is open. -/
def Obligations.RoundsStart : Prop :=
  ∀ (c : Instr) (s : State),
    (c = .roundStart ∧ s.link.state = .running ∧ s.link.round = none ∧
        ∃ e, s.link.roundTimer = some e ∧ e ≤ s.now) ∨
      (c = .wakeMinimum ∧ s.link.state = .waking ∧
        ∀ e, s.link.quietEntry = some e → e + 200 ≤ s.now) →
    ∃ t d, exec c s = .next t ∧ t.link.state = .running ∧
      t.link.round = some ⟨s.link.nextRound, s.link.quietPending, .pin .A, false⟩ ∧
      t.link.nextRound = s.link.nextRound + 1 ∧
      t.link.roundTimer = some (s.now + s.command.timing.roundPeriod) ∧
      t.link.head = some d ∧ d.number = s.link.nextRound ∧ d.quiet = s.link.quietPending ∧
      (∀ p, d.marks.get p = (s.station p).queryMark ∧ (t.station p).queryMark = false ∧
        (t.station p).state = (s.station p).state) ∧
      t.link.sent =
        some ⟨.pin .A, (s.station (.pin .A)).slot, (s.station (.pin .A)).cell⟩ ∧
      t.loop = s.loop ∧ t.seqs = s.seqs ∧ t.account = s.account ∧ t.transit = s.transit

-- `ReportsTaken` formalises R39, R41 to R44, R46, R47, R49 to R51, R54, R82, R85, R94 to R96, R98,
-- R112, R114, R117, R120 and R175, as far as each is about one report.
/-- For a good report in the open window of its position (log entry 3: outside it, nothing). It is
cached with the round number, sets the miss count to 0 and the counter baseline (pinsetters,
return), moves an ABSENT, LOST or JOINING position to READY or JOINING by its flag, and hands a
condition over from ABSENT or LOST, when it differs from the cached one or none is cached (log entry
34): sequencer x keeps it; a code at the return is RETURN_STATION. R94 to R96: one handed to a lane
is FAULT(STATION) with the resume order of its state, save in FAULT and PARKED, where it is only
kept, as a change back to OK is. It follows the report's STATION READY (log entry 51).

An echo of another tag than the slot's does nothing, TAKEN marks the order, and the end of a
console's order makes room for its answer, or else its dirty head (a REFUSED item is dirty again).

A lift takes the oldest pit ball, or counts an inferred launch, and a reserved or free place on the
track, or is written off with OVERFULL. R41: lifts with a lift order's DONE use its reservation
first. An arrival takes the oldest track ball or is a stray. R120, R175: the one that clears a lane
under a close watch completes it: record, park and reply (RETURN_FAULT and SETTLEMENT in log entry
50's order).

A console's new request is taken while no answer waits in a round not quiet: the owner's status is
the answer. CALL sets the call demand, SKIP and CORRECT do as the desk's, else RANGE. R41: an echo
that ends the console's order comes first, so a request with the end of an ANSWER is taken, not one
with the end of a DISPLAY while an answer waits; the dirty head posted ahead of the new answer is
the model's choice (log entry 8). R98: CALL clears a FAULT, but not under LINK, TRIGGER or ESTOP.

A joining position takes its next tag from the echo (a console its request tag). Going READY it
offers STATION READY, a console has all 528 items marked and the first served, a pinsetter gets the
wanted order, a pending start begins. -/
def Obligations.ReportsTaken : Prop :=
  (∀ (p : Position) (rep : Report) (s : State),
    let handed := (s.station p).state = .absent ∨ (s.station p).state = .lost ∨
      (s.station p).cache.map (·.report.condition) ≠ some rep.condition
    (∀ n q, s.link.round = some ⟨n, q, p, false⟩ →
      ∃ t, exec (.reportArrival p rep) s = .next t ∧
        t.link.round = some ⟨n, q, p, true⟩ ∧ (t.station p).cache = some ⟨rep, n⟩ ∧
        (t.station p).misses = 0 ∧
        (t.station p).baseline =
          (match p with
            | .con _ => (s.station p).baseline
            | _ => some rep.counter) ∧
        (t.station p).state =
          (if (s.station p).state = .absent ∨ (s.station p).state = .lost ∨
              (s.station p).state = .joining then
            if rep.ready = true then .ready else .joining
          else (s.station p).state) ∧
        (p = .ret → t.transit.rack = rep.occupancy) ∧
        (∀ x, p = .pin x → (t.seq x).condition =
          if handed then rep.condition else (s.seq x).condition) ∧
        (p = .ret → handed → rep.condition ≠ 0 → s.transit.fault = none →
          t.transit.fault = some ⟨.returnStation, some rep.condition⟩)) ∧
    ((∀ n q, s.link.round ≠ some ⟨n, q, p, false⟩) →
      exec (.reportArrival p rep) s = .next (finish s))) ∧
  (∀ (p : Position) (rep : Report) (n : BitVec 8) (q : Bool) (o : SlotOrder) (s : State),
    s.link.round = some ⟨n, q, p, false⟩ → s.command.slot = none → s.Settled p rep →
    rep.request = none → (s.station p).slot = some o →
    let seen := { s.station p with misses := 0, cache := some ⟨rep, n⟩ }
    (rep.echo.map (·.tag) ≠ some o.tag → ∃ t, exec (.reportArrival p rep) s = .next t ∧
      t.station p = seen ∧ t.seqs = s.seqs ∧ t.loop = s.loop) ∧
    (rep.echo = some ⟨o.tag, .taken⟩ → ∃ t, exec (.reportArrival p rep) s = .next t ∧
      t.station p = { seen with slot := some { o with taken := true } } ∧ t.seqs = s.seqs ∧
      t.loop = s.loop) ∧
    (∀ x e, p = .con x → rep.echo = some e → e.tag = o.tag → e.state ≠ .taken →
      let goesOn := fun (waiting : Option Answer) (list : List Item) =>
        ∃ t, exec (.reportArrival p rep) s = .next t ∧ t.seqs = s.seqs ∧ t.loop = s.loop ∧
          (t.station p).answer = waiting ∧
          (∀ a, waiting = some a → t.link.dirty.get x = list ∧ (t.station p).slot =
            some ⟨.answer a.tag a.kind a.status, (s.station p).nextTag, false⟩) ∧
          (∀ j rest, waiting = none → list = j :: rest → t.link.dirty.get x = rest ∧
            (t.station p).slot =
              some ⟨.display j (displayContent j s), (s.station p).nextTag, false⟩) ∧
          (waiting = none → list = [] →
            t.link.dirty.get x = [] ∧ (t.station p).slot = none)
      let refused := ∃ r, e.state = .refused r
      (∀ i c, o.order = .display i c →
        (¬refused → goesOn (s.station p).answer (s.link.dirty.get x)) ∧
        (refused → goesOn (s.station p).answer (mark (s.link.dirty.get x) i))) ∧
      (∀ g k st, o.order = .answer g k st → goesOn none (s.link.dirty.get x)))) ∧
  (∀ (x : Lane) (rep : Report) (n : BitVec 8) (q : Bool) (b : BitVec 4) (s : State),
    s.link.round = some ⟨n, q, .pin x, false⟩ → s.OnlyCloses →
    (s.station (.pin x)).state = .ready → (s.station (.pin x)).rejoin = false →
    (s.station (.pin x)).cache.map (·.report.condition) = some rep.condition →
    (s.station (.pin x)).baseline = some b → rep.echo = none →
    let k := (rep.counter - b).toNat
    let l := s.laneTransit x
    let places := min k (l.reservation + freePlaces s.transit)
    let cleared := l.closeWatch = true ∧ l.inFlight = [] ∧ l.pitHold.length ≤ k ∧ 0 < k ∧
      places = 0 ∧ ∀ b ∈ s.transit.track, b.lane ≠ x
    ∃ t, exec (.reportArrival (.pin x) rep) s = .next t ∧
      (¬cleared → t.seqs = s.seqs ∧ t.account = s.account ∧ t.command = s.command ∧
        t.loop = if places < k ∧ s.transit.fault = none then
          (offer (.returnFault .overfull none) s).loop else s.loop) ∧
      (cleared → s.NoneLeaves → t.seq x.other = s.seq x.other ∧
        (if s.transit.fault = none then offer (.returnFault .overfull none) s
          else s).CloseCompletes x (settlement x s) t) ∧
      (t.laneTransit x).pitHold = l.pitHold.drop k ∧
      (t.laneTransit x).reservation = l.reservation - k ∧
      t.laneTransit x.other = s.laneTransit x.other ∧
      t.transit.track = s.transit.track ++ List.replicate places ⟨x, s.now⟩ ∧
      t.transit.inferred = s.transit.inferred + BitVec.ofNat 32 (k - l.pitHold.length) ∧
      t.transit.writeOffs = s.transit.writeOffs + BitVec.ofNat 32 (k - places) ∧
      t.transit.seen = s.transit.seen ∧ t.transit.matched = s.transit.matched ∧
      (k = places → t.transit.fault = s.transit.fault) ∧
      (places < k → s.transit.fault = none → t.transit.fault = some ⟨.overfull, none⟩) ∧
      (0 < k → t.transit.idleTimer = s.startTimer (s.command.timing.idleCutoff * 1000))) ∧
  (∀ (rep : Report) (n : BitVec 8) (q : Bool) (b : BitVec 4) (s : State),
    s.link.round = some ⟨n, q, .ret, false⟩ → s.OnlyCloses →
    (s.station .ret).state = .ready → (s.station .ret).baseline = some b → rep.echo = none →
    s.transit.waiters = [] →
    let k := (rep.counter - b).toNat
    let balls := s.transit.track.length
    let cleared := fun y : Lane => (s.laneTransit y).closeWatch = true ∧
      (s.laneTransit y).inFlight = [] ∧ (s.laneTransit y).pitHold = [] ∧
      (∃ e ∈ s.transit.track.take k, e.lane = y) ∧ ∀ e ∈ s.transit.track.drop k, e.lane ≠ y
    ∃ t, exec (.reportArrival .ret rep) s = .next t ∧
      ((∀ y, ¬cleared y) → t.seqs = s.seqs ∧ t.transit.lanes = s.transit.lanes ∧
        t.account = s.account ∧ t.command = s.command) ∧
      (∀ y, cleared y → ¬cleared y.other → s.NoneLeaves →
        (s.station .ret).cache.map (·.report.condition) = some rep.condition →
        t.seq y.other = s.seq y.other ∧ s.CloseCompletes y (settlement y s) t) ∧
      t.transit.track = s.transit.track.drop k ∧
      t.transit.matched = s.transit.matched + BitVec.ofNat 32 (min k balls) ∧
      t.transit.strays = s.transit.strays + BitVec.ofNat 32 (k - balls) ∧
      t.transit.rack = rep.occupancy ∧
      (0 < k → t.transit.idleTimer = s.startTimer (s.command.timing.idleCutoff * 1000))) ∧
  (∀ (x : Lane) (rep : Report) (n : BitVec 8) (q : Bool) (w : Request) (s : State),
    s.link.round = some ⟨n, q, .con x, false⟩ → s.command.slot = none →
    s.Settled (.con x) rep → rep.request = some w →
    let r := s.station (.con x)
    (∀ e o, rep.echo = some e → r.slot = some o → e.tag ≠ o.tag) →
    let gives := fun (status : Status) (t : State) =>
      exec (.reportArrival (.con x) rep) s = .next t ∧
        (t.station (.con x)).requestTag = some w.tag ∧
        (t.station (.con x)).answer = some ⟨w.tag, w.kind, status⟩ ∧
        (r.slot = none → (t.station (.con x)).slot =
          some ⟨.answer w.tag w.kind status, r.nextTag, false⟩) ∧
        (∀ o, r.slot = some o → (t.station (.con x)).slot = some o)
    let stays := fun t : State => t.seqs = s.seqs ∧ t.roster = s.roster ∧ t.score = s.score ∧
      t.account = s.account ∧ t.loop = s.loop ∧ t.link.call = s.link.call
    (r.requestTag = some w.tag ∨ r.answer ≠ none ∨ q = true →
      ∃ t, exec (.reportArrival (.con x) rep) s = .next t ∧ stays t ∧
        (t.station (.con x)).requestTag = r.requestTag ∧
        (t.station (.con x)).answer = r.answer) ∧
    (r.requestTag ≠ some w.tag → r.answer = none → q = false →
      (w.kind = 0 →
        (11 < w.slot.toNat ∨ 3 < w.game.toNat → ∃ t, gives .range t ∧ stays t) ∧
        (w.slot.toNat ≤ 11 → w.game.toNat ≤ 3 → s.score.certified = true →
          ∃ t, gives .locked t ∧ stays t) ∧
        (∀ k g, k = w.slot.toNat → g = w.game.toNat → ∀ (hk : k < 12) (hg : g < 4),
          let c : Correction :=
            ⟨⟨k, hk⟩, ⟨g, hg⟩, w.frame.toNat, w.ball.toNat, w.pinfall.toNat⟩
          ∃ t, gives (correct (.console x) c s).2 t ∧
            t.score = (correct (.console x) c s).1.score ∧ t.roster = s.roster)) ∧
      (w.kind = 1 → ∃ t, gives (skipBowler x s).2 t ∧ t.score = s.score ∧
        t.roster = (skipBowler x s).1.roster ∧ t.account = (skipBowler x s).1.account) ∧
      (w.kind = 2 → ∃ t, gives .done t ∧ t.link.call = s.link.call.set x true ∧
        t.roster = s.roster ∧ t.score = s.score ∧ t.account = s.account ∧
        let called := if s.link.call.get x = true then s else offer (.call x) s
        let held := fun c : FaultRecord => c.code = .link ∨ c.code = .trigger ∨ c.code = .estop
        ((s.seq x).state ≠ .fault ∨ (∀ c, (s.seq x).fault = some c → held c) →
          t.seqs = s.seqs ∧ t.loop = called.loop) ∧
        (∀ c, (s.seq x).state = .fault → (s.seq x).fault = some c → ¬held c →
          s.Recovers x t ∧
          t.loop = ((offer (.faultCleared (.lane x)) called).faultsAgain x).loop ∧
          (s.causeAtClear x = none ∨ ((s.seq x).order = none ∧ (s.seq x).place = none) →
            t.seq x.other = s.seq x.other))) ∧
      (w.kind = 3 → ∃ t, gives .range t ∧ stays t))) ∧
  (∀ (x : Lane) (rep : Report) (n : BitVec 8) (q : Bool) (w : Request) (e : Echo) (o : SlotOrder)
      (s : State),
    s.link.round = some ⟨n, q, .con x, false⟩ → s.command.slot = none →
    s.Settled (.con x) rep → rep.request = some w → rep.echo = some e →
    (s.station (.con x)).slot = some o → e.tag = o.tag → e.state ≠ .taken →
    let r := s.station (.con x)
    let head := fun (waiting : Option Answer) (list : List Item) (t : State) =>
      (∀ a, waiting = some a →
        (t.station (.con x)).slot = some ⟨.answer a.tag a.kind a.status, r.nextTag, false⟩) ∧
      (∀ j rest, waiting = none → list = j :: rest → (t.station (.con x)).slot =
        some ⟨.display j (displayContent j s), r.nextTag, false⟩)
    let goesOn := fun (waiting : Option Answer) (list : List Item) =>
      (r.requestTag = some w.tag ∨ waiting ≠ none ∨ q = true →
        ∃ t, exec (.reportArrival (.con x) rep) s = .next t ∧ head waiting list t ∧
          (waiting = none → list = [] → (t.station (.con x)).slot = none) ∧
          (t.station (.con x)).requestTag = r.requestTag ∧
          (t.station (.con x)).answer = waiting ∧ t.seqs = s.seqs ∧ t.roster = s.roster ∧
          t.score = s.score ∧ t.account = s.account ∧ t.loop = s.loop ∧
          t.link.call = s.link.call) ∧
      (r.requestTag ≠ some w.tag → waiting = none → q = false →
        let owner := handRequest x w s
        ∃ t, exec (.reportArrival (.con x) rep) s = .next t ∧ head none list t ∧
          (list = [] → (t.station (.con x)).slot =
            some ⟨.answer w.tag w.kind owner.2, r.nextTag, false⟩) ∧
          (t.station (.con x)).requestTag = some w.tag ∧
          (t.station (.con x)).answer = some ⟨w.tag, w.kind, owner.2⟩ ∧
          t.seqs = owner.1.seqs ∧ t.roster = owner.1.roster ∧ t.score = owner.1.score ∧
          t.account = owner.1.account ∧ t.loop = owner.1.loop ∧
          t.link.call = owner.1.link.call)
    let refused := ∃ r, e.state = .refused r
    (∀ i c, o.order = .display i c →
      (¬refused → goesOn r.answer (s.link.dirty.get x)) ∧
      (refused → goesOn r.answer (mark (s.link.dirty.get x) i))) ∧
    (∀ g k st, o.order = .answer g k st → goesOn none (s.link.dirty.get x))) ∧
  (∀ (x : Lane) (rep : Report) (n : BitVec 8) (q : Bool) (s : State),
    let p := Position.pin x
    let r := s.station p
    let z := s.seq x
    s.link.round = some ⟨n, q, p, false⟩ → s.command.slot = none →
    r.baseline = none ∨ r.baseline = some rep.counter →
    r.state = .absent ∨ r.state = .lost ∨
      r.cache.map (·.report.condition) ≠ some rep.condition →
    let goesReady := rep.ready = true ∧
      (r.state = .absent ∨ r.state = .lost ∨ r.state = .joining)
    let told := if goesReady then offer (.station p true) s else s
    let handed := s.modSeq x fun z => { z with condition := rep.condition }
    (rep.condition ≠ 0 → z.state ≠ .fault → z.state ≠ .parked →
      z.order = none ∨ z.place = none →
      (z.state = .ballOut ∨ z.state = .settle ∨ z.state = .scan → s.NoneLeaves) →
      ∃ t, exec (.reportArrival p rep) s = .next t ∧
        handed.EntersFault x .station (some rep.condition) t ∧
        (r.slot = none ∨ (∃ o, z.order = some ⟨o, true⟩) → (t.station p).slot = none) ∧
        t.account = s.account ∧ t.roster = s.roster ∧ t.score = s.score ∧
        t.loop = (offer (.fault x .station (some rep.condition)) told).loop) ∧
    (z.order = none →
      z.state = .fault ∨ (z.state = .parked ∧ (z.startPending = false ∨ ¬goesReady)) →
      ∃ t, exec (.reportArrival p rep) s = .next t ∧ t.seqs = handed.seqs ∧ t.loop = told.loop) ∧
    (rep.condition = 0 → r.state = .ready → r.rejoin = false → rep.echo = none →
      ∃ t, exec (.reportArrival p rep) s = .next t ∧ t.seqs = handed.seqs ∧
        t.loop = s.loop)) ∧
  (∀ (x : Lane) (o : PinOrder) (rep : Report) (n : BitVec 8) (q tag taken : Bool)
      (b : BitVec 4) (set : PinSet) (s : State),
    s.link.round = some ⟨n, q, .pin x, false⟩ → s.command.slot = none →
    (s.station (.pin x)).state = .ready → (s.station (.pin x)).rejoin = false →
    (s.station (.pin x)).cache.map (·.report.condition) = some rep.condition →
    (s.station (.pin x)).baseline = some b → rep.echo = some ⟨tag, .done set⟩ →
    (s.station (.pin x)).slot = some ⟨.pin o, tag, taken⟩ →
    (s.seq x).order = some ⟨o, true⟩ → (s.seq x).place = none → s.transit.waiters = [] →
    o = .fullSet ∨ o = .liftOnly ∨ (∃ made, o = .respot made) →
    (s.seq x).state = .cycling ∨ (s.seq x).state = .starting →
    let k := (rep.counter - b).toNat
    let l := s.laneTransit x
    let places := min k (l.reservation + freePlaces s.transit)
    l.closeWatch = false → l.pitHold.length ≤ k →
    ∃ t, exec (.reportArrival (.pin x) rep) s = .next t ∧
      t.transit.track = s.transit.track ++ List.replicate places ⟨x, s.now⟩ ∧
      t.transit.writeOffs = s.transit.writeOffs + BitVec.ofNat 32 (k - places) ∧
      (t.laneTransit x).pitHold = [] ∧ (t.laneTransit x).reservation = 0 ∧
      (t.laneTransit x).liftOut = false) ∧
  ∀ (p : Position) (rep : Report) (n : BitVec 8) (q : Bool) (s : State),
    s.link.round = some ⟨n, q, p, false⟩ → s.command.slot = none →
    let r := s.station p
    let joins := r.state = .absent ∨ r.state = .lost ∨ (r.state = .joining ∧ r.rejoin = true)
    let tag := if joins then (match rep.echo with
        | some e => !e.tag
        | none => false)
      else r.nextTag
    joins ∨ r.state = .joining → r.slot = none → rep.echo.map (·.tag) ≠ some tag →
    ∃ t, exec (.reportArrival p rep) s = .next t ∧ (t.station p).rejoin = false ∧
      (∀ x, p = .con x → joins → (t.station p).requestTag = rep.request.map (·.tag) ∧
        (t.station p).answer = r.answer ∧ t.link.call = s.link.call ∧ t.score = s.score ∧
        t.roster = s.roster) ∧
      (rep.ready = false → (t.station p).nextTag = tag ∧ (t.station p).slot = none) ∧
      (rep.ready = true → (t.station p).state = .ready ∧
        (offer (.station p true) s).loop.notices <+: t.loop.notices ∧
        (p = .ret → (t.station p).nextTag = tag ∧ (t.station p).slot = none) ∧
        (∀ x, p = .con x → joins → r.answer = none →
          let parts : List ItemPart := (List.range 10).map (fun i => .frame (i + 1)) ++ [.total]
          let all : List Item := (List.finRange 12).flatMap fun k =>
            (List.finRange 4).flatMap fun g => parts.map fun part => ⟨k, g, part⟩
          let waiting := s.link.dirty.get x
          let list := waiting ++ all.filter (· ∉ waiting)
          t.link.dirty.get x = list.tail ∧ (t.station p).nextTag = !tag ∧
          (t.station p).slot =
            (list.head?).map fun i => ⟨.display i (displayContent i s), tag, false⟩) ∧
        ∀ x, p = .pin x → rep.condition = 0 →
          r.baseline = none ∨ r.baseline = some rep.counter →
          let z := s.seq x
          let u := t.seq x
          let balls := (s.laneTransit x).pitHold.length
          u.condition = (if joins ∧ r.state ≠ .joining ∨
              r.cache.map (·.report.condition) ≠ some 0 then 0 else z.condition) ∧
          t.seq x.other = s.seq x.other ∧
          (¬(z.state = .parked ∧ z.startPending = true) →
            t.loop = (offer (.station p true) s).loop ∧
            (∀ o, z.order = some ⟨o, false⟩ →
              u = { z with
                order := some ⟨o, true⟩, condition := u.condition
                orderTimer := some (s.now + if o = .scan then s.command.timing.scanTimeout
                  else s.command.timing.cycleTimeout) } ∧
              (t.station p).slot = some ⟨.pin o, tag, false⟩ ∧ (t.station p).nextTag = !tag ∧
              (o = .fullSet ∨ o = .liftOnly ∨ (∃ set, o = .respot set) →
                (t.laneTransit x).liftOut = true ∧ (0 < balls → (t.laneTransit x).pitTimer =
                  s.startTimer s.command.timing.pitTimeout))) ∧
            ((∀ o, z.order ≠ some ⟨o, false⟩) → u = { z with condition := u.condition } ∧
              (t.station p).slot = none ∧ (t.station p).nextTag = tag)) ∧
          (z.state = .parked → z.startPending = true → z.order = none → s.line.estop = false →
            z.pitStuck = false → z.condition = 0 → s.transit.waiters = [] →
            u.state = .starting ∧ u.startPending = false ∧
            t.loop = (offer (.station p true) s).loop ∧
            (s.transit.fault = none → balls ≤ freePlaces s.transit →
              u.order = some ⟨.fullSet, true⟩ ∧ u.place = none ∧
              (t.laneTransit x).reservation = balls ∧
              (t.station p).slot = some ⟨.pin .fullSet, tag, false⟩) ∧
            (s.transit.fault ≠ none ∨ freePlaces s.transit < balls →
              u.order = none ∧ u.place = some ⟨balls, .fullSet⟩ ∧
              t.transit.waiters = [⟨x, balls⟩] ∧ (t.station p).slot = none)))

/-- R38, R40: the close of a report window. After a good report the next position's cell leaves and
its window opens, and nothing else happens. Without one, a position that is JOINING or READY below
the miss limit counts a miss; at the limit it is LOST with its slot empty, STATION LOST is offered,
and its owner is told: the return fault RETURN_LINK stands, and a lane takes the loss by its state.

R94 and R95, for a loss that reaches a lane: a lane in FAULT or PARKED stays as it is; one in
PARKING, or in RECOVER with PARK as its resume order, is PARKED with no park pending (that its
resume record and clear step are cleared too is the model's reading, log entry 16, and that a place
request still waiting in RECOVER is withdrawn is the model's choice, log entry 56); every other lane
enters FAULT(LINK), with no order, place request or start pending, with its scored ball dropped, and
with the resume order that its state gives: FULL_SET with a start pending; in RECOVER the one it
had; PARK with the park pending; FULL_SET from STARTING; else the order that was out or waited for
its places. That FAULT follows STATION LOST in the queue is the model's choice (log entry 51).

R36 and R55, the last window of a round, after a good report: a round completes, and nothing else
happens; at the end of a quiet round every order slot is empty and the quiet entry time is this
moment, and the link is QUIET with every position QUIET, or, with a wake held, WAKING with every
position JOINING. No restart and no query waits here. -/
def Obligations.WindowsClose : Prop :=
  ∀ (p : Position) (n : BitVec 8) (quiet : Bool) (s : State),
    (∀ q, s.link.round = some ⟨n, quiet, p, true⟩ → nextPosition p = some q →
      exec (.reportWindowClose p) s = .next (finish { s with link :=
        { s.link with
          round := some ⟨n, quiet, q, false⟩
          sent := some ⟨q, (s.station q).slot, (s.station q).cell⟩ } })) ∧
    (s.link.round = some ⟨n, false, p, false⟩ → s.command.slot = none →
      (s.station p).state = .joining ∨ (s.station p).state = .ready →
      ((s.station p).misses + 1 < s.command.timing.missLimit →
        ∃ t, exec (.reportWindowClose p) s = .next t ∧
          (t.station p).misses = (s.station p).misses + 1 ∧
          (t.station p).state = (s.station p).state ∧ t.loop = s.loop ∧ t.seqs = s.seqs ∧
          t.transit = s.transit) ∧
      (s.command.timing.missLimit ≤ (s.station p).misses + 1 →
        ∃ t, exec (.reportWindowClose p) s = .next t ∧ (t.station p).state = .lost ∧
          (t.station p).misses = 0 ∧ (t.station p).cache = (s.station p).cache ∧
          (t.station p).baseline = (s.station p).baseline ∧
          (offer (.station p false) s).loop.notices <+: t.loop.notices ∧
          (∀ x, p = .pin x → (s.seq x).order = none ∨ (s.seq x).place = none →
            let q := s.seq x
            let ball := q.state = .ballOut ∨ q.state = .settle ∨ q.state = .scan
            let parks := q.state = .parking ∨ (q.state = .recover ∧ q.resume = some .park)
            let again := if q.startPending = true then some .fullSet
              else if q.state = .recover then q.resume
              else if q.parkPending = true then some .park
              else if q.state = .starting then some .fullSet
              else (q.order.map (·.order)).or (q.place.map (·.order))
            let timer := if q.order = none then q.orderTimer else none
            let lost := offer (.station p false) s
            (t.station p).slot = none ∧
            (q.state = .fault ∨ q.state = .parked → t.seqs = s.seqs ∧ t.loop = lost.loop) ∧
            (parks → t.loop = lost.loop ∧ (t.station p).cell = some (.pin false false) ∧
              t.seq x = { q with
                state := .parked, order := none, orderTimer := timer, parkPending := false
                resume := none, clearStep := false
                place := if q.state = .recover then none else q.place }) ∧
            (q.state ≠ .fault → q.state ≠ .parked → ¬parks → (ball → s.NoneLeaves) →
              t.seq x = { q with
                state := .fault, fault := some ⟨.link, none⟩, resume := again
                startPending := false, order := none, orderTimer := timer, place := none
                settleTimer := none, scored := if ball then none else q.scored
                retry := if ball then false else q.retry } ∧
              (ball → s.Drops x t) ∧ (t.station p).cell = some (.pin false true) ∧
              t.account = s.account ∧ t.roster = s.roster ∧ t.score = s.score ∧
              t.loop = (offer (.fault x .link none) lost).loop)) ∧
          (p = .ret → (t.station p).slot = none ∧
            (s.transit.fault = none → t.transit.fault = some ⟨.returnLink, none⟩)) ∧
          (∀ x, p = .con x → (t.station p).slot = none ∧ (t.station p).answer = none))) ∧
    (s.link.round = some ⟨n, quiet, p, true⟩ → p = .con .B → s.command.slot = none →
      (quiet = false → exec (.reportWindowClose p) s = .next (finish { s with link :=
        { s.link with round := none } })) ∧
      (quiet = true → ∃ t, exec (.reportWindowClose p) s = .next t ∧ t.link.round = none ∧
        t.link.quietPending = false ∧ t.link.wakeHeld = false ∧
        t.link.quietEntry = some s.now ∧ t.link.roundTimer = none ∧
        t.link.nextRound = s.link.nextRound ∧ t.command = s.command ∧
        t.loop.replies = s.loop.replies ∧
        t.link.state = (if s.link.wakeHeld = true then .waking else .quiet) ∧
        ∀ y, (t.station y).slot = none ∧ (t.station y).misses = 0 ∧
          (t.station y).state = (if s.link.wakeHeld = true then .joining else .quiet) ∧
          (t.station y).cell = (s.station y).cell ∧
          (t.station y).baseline = (s.station y).baseline ∧
          (t.station y).cache = (s.station y).cache))

/-! ### Resets -/

/-- R14, R31, R32, R18, R59, R77, R102 and R124. An individual RESET holds the slot and places its
DONE reply behind those that wait; each of those that departs leaves one fewer ahead, and the
departure of its own reply carries the warm reset out. A group RESET carries it out at once, and so
does the WARM_RESET row at any moment (the model's choice, log entry 20). The warm reset gives: the
slot and both queues empty, the counters 0, the loop UP with its timer started, the lines unknown
(at LOW for no run, the model's choice, log entry 29, and with no acceptance waiting, the model's
own field, log entry 23), the latch, overrides and foul indications clear, every transit record and
counter cleared, every position ABSENT with an empty slot, an invalid cell and baseline and no
cache, the dirty lists and call demands cleared, and each lane in PARKED, with its account CLOSED,
or in RECOVER (with an account CLOSING too, log entry 20) with FULL_SET to do if it was starting and
a SCAN otherwise; that a lane whose account is CLOSED has no resume order then is the model's choice
(log entry 16); the tables, the roster, the scores, the accounts and the time base are kept. No UP
bowler has a withdrawal pending here. -/
def Obligations.ResetsCarriedOut : Prop :=
  (∀ (h : CommandHead) (s : State),
    (s.Takes h → exec (.reset h) s = .next (finish
      ({ s with command := { s.command with
          slot := some ⟨28, h.sequence, false, .resetting s.loop.replies.length⟩ } }.replied
        h 28 .done []))) ∧
    (s.repeater = false → h.group = true → s.command.slot = none →
      exec (.reset h) s = exec .warmReset s)) ∧
  (∀ (f : Frame) (r : Reply) (rest : List Reply) (code sequence : Byte) (n : Nat) (s : State),
    s.Hears → Good f → f.kind = 0 → s.loop.replies = r :: rest →
    s.command.slot = some ⟨code, sequence, false, .resetting (n + 1)⟩ →
    ∃ t, exec (.loopFrameArrival f) s = .next t ∧ t.loop.replies = rest ∧
      t.command = { s.command with slot := some ⟨code, sequence, false, .resetting n⟩ } ∧
      t.seqs = s.seqs ∧ t.transit = s.transit ∧ t.account = s.account) ∧
  ∀ s : State, s.repeater = false → s.NoneLeaves →
    let cleared := { s.loop with
      up := true, timer := some (s.now + 50), replies := [], notices := [], noticesLost := false
      counters := .zero }
    let reset := fun t : State =>
      t.command = { s.command with slot := none } ∧
      t.line.lines = ⟨.initial, .initial, .initial, .initial, .initial, .initial, .initial⟩ ∧
      t.line.estop = false ∧ t.line.powerOverride = none ∧ t.line.motorOverride = none ∧
      t.line.foulLamp = .both none ∧ t.transit = .initial ∧
      (∀ p, (t.station p).state = .absent ∧ (t.station p).slot = none ∧
        (t.station p).cell = none ∧ (t.station p).baseline = none ∧ (t.station p).cache = none ∧
        (t.station p).misses = 0 ∧ (t.station p).queryMark = false ∧
        (t.station p).answer = none) ∧
      t.link.dirty = .both [] ∧ t.link.call = .both false ∧ t.link.quietPending = false ∧
      (s.link.state = .running →
        t.link.state = .running ∧ t.link.round = some ⟨0, false, .pin .A, false⟩) ∧
      (∀ x, (t.seq x).state = (if (s.acct x).state = .closed then .parked else .recover) ∧
        (t.seq x).holds = (s.seq x).holds ∧ (t.seq x).standing = (s.seq x).standing ∧
        (t.seq x).fault = none ∧ (t.seq x).clearStep = false ∧ (t.seq x).scored = none ∧
        (t.seq x).pitStuck = false ∧ (t.seq x).condition = 0 ∧ (t.seq x).parkPending = false ∧
        (t.seq x).startPending = false ∧
        (t.seq x).resume =
          (if (s.acct x).state ≠ .closed ∧ ((s.seq x).state = .starting ∨
              ((s.seq x).state = .parked ∧ (s.seq x).startPending = true)) then some .fullSet
            else none)) ∧
      t.roster = s.roster ∧ t.score = s.score ∧ t.account = s.account ∧ t.time = s.time
    (∃ t, exec .warmReset s = .next t ∧ t.loop = cleared ∧ reset t) ∧
    ∀ (f : Frame) (r : Reply) (rest : List Reply) (code sequence : Byte),
      s.Hears → Good f → f.kind = 0 → s.loop.replies = r :: rest →
      s.command.slot = some ⟨code, sequence, false, .resetting 0⟩ →
      ∃ t g, exec (.loopFrameArrival f) s = .next t ∧ g.kind = 2 ∧ g.sequence = r.sequence ∧
        g.origin = ownPair s ∧ g.body = bodyOf r.body ∧ Good g ∧
        t.loop = { cleared with out := some g } ∧ reset t

/-! ### The input lines and the balls -/

/-- R61, R62, R65 to R67: a first acceptance sets the level and starts the stuck timer of a line
that it makes active, from its own time; an inactive edge stops the stuck timer, but for one that a
load has started since by making the line active (R64, log entry 4), and a stuck line leaves its
stuck state with LINE_FAULT; at the expiry of a stuck timer the line is stuck, with LINE_FAULT, and
a stuck PIT_x faults a lane that is neither PARKED nor in FAULT. The acceptance is one that a sample
tick left waiting or one made now. -/
def Obligations.LevelsAccepted : Prop :=
  (∀ (l : InputLine) (v : Level) (st : LineState) (time : Nat) (s : State),
    s.Gives l .first v st time → (l = .estop → v ≠ polarity l s) →
    exec (.firstAcceptance l v) s = .next (finish (s.risen l st time))) ∧
  (∀ (l : InputLine) (st : LineState) (time : Nat) (s : State),
    s.Gives l .inactive (polarity l s).flip st time →
    let active := st.accepted = some (polarity l s) ∧ st.events = []
    let timer := if active then st.stuckTimer else none
    let off := s.modInput l fun _ => { st with stuckTimer := timer, stuck := false }
    (l = .estop → exec (.inactiveEdge l) s = .next (finish (s.modInput l fun _ => st))) ∧
    (l ≠ .estop → st.stuck = false → exec (.inactiveEdge l) s = .next (finish off)) ∧
    (st.stuck = true →
      (∀ x, l = .foul x ∨ l = .launch x →
        exec (.inactiveEdge l) s = .next (finish (offer (.lineFault l false) off))) ∧
      (∀ x, l = .pit x → exec (.inactiveEdge l) s = .next (finish
        ((offer (.lineFault l false) off).modSeq x fun q => { q with pitStuck := false }))))) ∧
  ∀ (l : InputLine) (e : Nat) (s : State),
    (s.line.lines.get l).stuckTimer = some e → e ≤ s.now →
    let on := s.modInput l fun st => { st with stuckTimer := none, stuck := true }
    (∀ x, l = .foul x ∨ l = .launch x →
      exec (.lineStuck l) s = .next (finish (offer (.lineFault l true) on))) ∧
    (∀ x, l = .pit x → ∃ t, exec (.lineStuck l) s = .next t ∧
      t.line.lines = on.line.lines ∧ (t.seq x).pitStuck = true ∧
      (offer (.lineFault l true) s).loop.notices <+: t.loop.notices ∧
      ((s.seq x).state = .parked ∨ (s.seq x).state = .fault →
        (t.seq x).state = (s.seq x).state ∧ (t.seq x).fault = (s.seq x).fault) ∧
      ((s.seq x).state ≠ .parked → (s.seq x).state ≠ .fault →
        (t.seq x).state = .fault ∧ (t.seq x).fault = some ⟨.trigger, none⟩))

/-- R56, R62, R63, R74, R86, R104, R105, R110 and R119: an active edge of LAUNCH_x, left waiting by
a sample tick or made now; on an empty FIFO, one whose flight is not over yet, where the ESTOP
freeze does not stand. The seen-launch counter rises by one, and the edge wakes the pit link (the
wake as in WakesEndQuiet, with its log entries 9 and 23). With fewer than 4 balls in flight a record
joins the tail with the time of the acceptance: scored for the UP bowler (for no slot on a practice
lane) on a READY lane, which is then in BALL_OUT with the guard DOWN, and dead otherwise. A pending
foul makes it a foul ball, in the scored-ball copy too, raises the foul indication for the foul lamp
time, and is gone; the older records stay as they are. The ball that joins an empty FIFO starts the
flight timer, for the flight timeout from its launch, frozen with what remains of it under the ESTOP
freeze; that a timer due at this very millisecond runs is the model's choice (log entry 18). With 4,
the ball is written off and the lost-on-lane count rises, up to 4. Nothing else of the Transit
Monitor changes. That an acceptance may wait for this row is the model's choice (log entry 4). -/
def Obligations.LaunchesFollowed : Prop :=
  ∀ (x : Lane) (st : LineState) (time : Nat) (s : State),
    s.Gives (.launch x) .active (polarity (.launch x) s) st time →
    let l := s.laneTransit x
    let flightEnd := time + s.command.timing.flightTimeout
    (l.inFlight = [] → s.transit.frozen = true ∨ s.now ≤ flightEnd) →
    let foul := decide (l.pendingFoul ≠ .stopped)
    let slot := if (s.seq x).practice = true then none else (s.roster.queues.get x).head?
    let flightTimer := if l.inFlight ≠ [] then l.flightTimer
      else if s.transit.frozen = true then .frozen (flightEnd - s.now)
      else .running flightEnd
    let lane := fun lane : LaneTransit =>
      { s.transit with seen := s.transit.seen + 1, lanes := s.transit.lanes.set x lane }
    let joins := fun (b : BallRecord) (copy : Option ScoredCopy) => lane
      { l with
        inFlight := l.inFlight ++ [b], copy := copy, pendingFoul := .stopped
        flightTimer := flightTimer }
    ∃ t, exec (.launch x) s = .next t ∧ s.Wakes t ∧
      t.line.lines = (s.risen (.launch x) st time).line.lines ∧ t.loop = s.loop ∧
      t.command = s.command ∧ t.account = s.account ∧ t.roster = s.roster ∧ t.score = s.score ∧
      t.seq x.other = s.seq x.other ∧
      (l.inFlight.length < 4 →
        t.line.foulLamp = (if foul = true then
          s.line.foulLamp.set x (some (s.now + s.command.timing.foulLamp * 1000))
          else s.line.foulLamp) ∧
        ((s.seq x).state = .ready →
          t.transit = joins ⟨s.nextBall, x, some time, slot, true, foul, false, none⟩
            (some ⟨slot, foul, false, none⟩) ∧
          t.seq x = { s.seq x with state := .ballOut, scored := some s.nextBall } ∧
          (t.station (.pin x)).cell = some (.pin false true)) ∧
        ((s.seq x).state ≠ .ready →
          t.transit = joins ⟨s.nextBall, x, some time, none, false, foul, false, none⟩ l.copy ∧
          t.seq x = s.seq x)) ∧
      (4 ≤ l.inFlight.length →
        t.transit = { lane { l with lost := min 4 (l.lost + 1) } with
          writeOffs := s.transit.writeOffs + 1 } ∧
        t.seq x = s.seq x ∧ t.line.foulLamp = s.line.foulLamp)

/-- R56, R62, R63, R81, R84, R87, R88, R106, R107, R111 and R113: an active edge of PIT_x, left
waiting by a sample tick or made now; that it may wait for this row is the model's choice (log entry
4). The edge wakes the pit link (as in WakesEndQuiet, with its log entries 9 and 23). With balls in flight
the oldest moves to the tail of the pit hold with its speed, from its launch to the acceptance, and
the scored ball takes the lane from BALL_OUT to SETTLE. With no other ball in flight the flight
timer stops, and with others, here where the next one's flight is not over yet and the ESTOP freeze
does not stand, it runs for the next one from its own launch; that a timer due at this very
millisecond runs on is the model's choice (log entry 18). With none in flight, a ball given up
before comes off the lost-on-lane count and the net write-offs as a dead record; or it is an
inferred launch, scored on a READY lane, which enters SETTLE, and dead otherwise.

R81 and R84: on a HELD lane the ball that joins the pit hold begins a lift. Places are asked for as
many balls as the pit then holds: granted, the lane is in CYCLING with LIFT_ONLY out, and otherwise
it waits in LIFT_WAIT. Nothing else waits for places there.

R113: a ball that joins an empty pit hold with a lift order of the lane out starts the pit timer, and
so does the posting of that LIFT_ONLY; otherwise the pit timer stays. Under the ESTOP freeze it
starts frozen with its full length (R119).

A pit arrival completes no close, since its ball joins the pit hold or finds it full: the account
stays. R106 and R107, with four balls in the pit hold: the ball is written off and does not join, so
that no lift begins; the scored ball still takes the lane to SETTLE, with its speed in the
scored-ball copy, and a scored inferred ball with its own copy. -/
def Obligations.PitArrivalsPaired : Prop :=
  ∀ (x : Lane) (st : LineState) (time : Nat) (s : State),
    s.Gives (.pit x) .active (polarity (.pit x) s) st time →
    let l := s.laneTransit x
    let slot := if (s.seq x).practice = true then none else (s.roster.queues.get x).head?
    let lines := (s.risen (.pit x) st time).line.lines
    let speed := fun b : BallRecord =>
      ballSpeed s.command.timing.gateDistance (time - b.launch.getD 0)
    let flightEnd := fun b : BallRecord => b.launch.getD 0 + s.command.timing.flightTimeout
    let arrives := fun result : State → Prop => ∃ t, exec (.pitArrival x) s = .next t ∧
      s.Wakes t ∧ t.line.lines = lines ∧
      t.transit.idleTimer = s.startTimer (s.command.timing.idleCutoff * 1000) ∧
      t.seq x.other = s.seq x.other ∧ t.laneTransit x.other = s.laneTransit x.other ∧
      t.transit.track = s.transit.track ∧ t.loop = s.loop ∧ t.account = s.account ∧
      t.roster = s.roster ∧ t.score = s.score ∧ result t
    let full := s.startTimer s.command.timing.pitTimeout
    let joins := fun (b : BallRecord) (t : State) =>
      (t.laneTransit x).pitHold = l.pitHold ++ [b] ∧
      (t.laneTransit x).pitTimer =
        if (l.pitHold = [] ∧ l.liftOut = true) ∨
            ((s.seq x).state = .held ∧ (t.seq x).state = .cycling ∧
              (t.seq x).order = some ⟨.liftOnly, true⟩) then full
        else l.pitTimer
    let settles := fun (scored : Option Nat) (t : State) =>
      t.seq x = { s.seq x with
        state := .settle, scored := scored
        settleTimer := some (s.now + s.command.timing.settle) }
    let told := fun (b : BallRecord) (t : State) =>
      ((s.seq x).scored = some b.id → (s.seq x).state = .ballOut →
        settles (some b.id) t ∧
        (t.laneTransit x).copy = l.copy.map fun c => { c with speed := speed b }) ∧
      ((s.seq x).scored ≠ some b.id → t.seq x = s.seq x ∧ (t.laneTransit x).copy = l.copy)
    let paired := fun result : BallRecord → State → Prop => ∀ b rest, l.inFlight = b :: rest →
      (∀ c, rest.head? = some c → s.transit.frozen = false ∧ s.now ≤ flightEnd c) →
      arrives fun t => (t.laneTransit x).inFlight = rest ∧
        (t.laneTransit x).flightTimer =
          ((rest.head?).map fun c => TransitTimer.running (flightEnd c)).getD .stopped ∧
        t.transit.inferred = s.transit.inferred ∧ result b t
    let given : BallRecord := ⟨s.nextBall, x, none, none, false, false, false, none⟩
    let dead : BallRecord := ⟨s.nextBall, x, none, none, false, false, true, none⟩
    let inferred := fun t : State => t.transit.inferred = s.transit.inferred + 1
    (l.pitHold.length < 4 → (s.seq x).state ≠ .held →
      paired (fun b t => joins { b with speed := speed b } t ∧ told b t ∧
        t.transit.writeOffs = s.transit.writeOffs) ∧
      (l.inFlight = [] → 0 < l.lost → arrives fun t =>
        (t.laneTransit x).lost = l.lost - 1 ∧ t.transit.writeOffs = s.transit.writeOffs - 1 ∧
        t.seqs = s.seqs ∧ t.transit.inferred = s.transit.inferred ∧ joins given t) ∧
      (l.inFlight = [] → l.lost = 0 → arrives fun t =>
        inferred t ∧ t.transit.writeOffs = s.transit.writeOffs ∧
        ((s.seq x).state ≠ .ready → t.seqs = s.seqs ∧ joins dead t) ∧
        ((s.seq x).state = .ready → settles (some s.nextBall) t ∧
          (t.laneTransit x).copy = some ⟨slot, false, true, none⟩ ∧
          joins { dead with slot := slot, scored := true } t))) ∧
    (l.pitHold.length < 4 → (s.seq x).state = .held → s.transit.waiters = [] →
      let n := l.pitHold.length + 1
      let lifts := fun t : State =>
        (t.seq x).standing = (s.seq x).standing ∧ (t.seq x).holds = (s.seq x).holds ∧
        (s.transit.fault = none → n ≤ freePlaces s.transit →
          (t.seq x).state = .cycling ∧ (t.seq x).order.map (·.order) = some .liftOnly ∧
          (t.seq x).place = none ∧ (t.laneTransit x).reservation = n ∧ t.transit.waiters = []) ∧
        (s.transit.fault ≠ none ∨ freePlaces s.transit < n →
          (t.seq x).state = .liftWait ∧ (t.seq x).order = (s.seq x).order ∧
          (t.seq x).place = some ⟨n, .liftOnly⟩ ∧ t.transit.waiters = [⟨x, n⟩] ∧
          (t.laneTransit x).reservation = l.reservation)
      paired (fun b t => joins { b with speed := speed b } t ∧ lifts t) ∧
      (l.inFlight = [] → 0 < l.lost → arrives fun t =>
        (t.laneTransit x).lost = l.lost - 1 ∧ t.transit.writeOffs = s.transit.writeOffs - 1 ∧
        joins given t ∧ lifts t) ∧
      (l.inFlight = [] → l.lost = 0 → arrives fun t =>
        inferred t ∧ t.transit.writeOffs = s.transit.writeOffs ∧ joins dead t ∧ lifts t)) ∧
    (4 ≤ l.pitHold.length →
      let stays := fun t : State => (t.laneTransit x).pitHold = l.pitHold ∧
        (t.laneTransit x).pitTimer = l.pitTimer
      paired (fun b t => stays t ∧ t.transit.writeOffs = s.transit.writeOffs + 1 ∧ told b t) ∧
      (l.inFlight = [] → 0 < l.lost → arrives fun t =>
        (t.laneTransit x).lost = l.lost - 1 ∧ stays t ∧ t.seqs = s.seqs ∧
        t.transit.writeOffs = s.transit.writeOffs ∧
        t.transit.inferred = s.transit.inferred) ∧
      (l.inFlight = [] → l.lost = 0 → arrives fun t =>
        inferred t ∧ t.transit.writeOffs = s.transit.writeOffs + 1 ∧ stays t ∧
        ((s.seq x).state ≠ .ready → t.seqs = s.seqs) ∧
        ((s.seq x).state = .ready → settles (some s.nextBall) t ∧
          (t.laneTransit x).copy = some ⟨slot, false, true, none⟩)))

/-- R56, R62, R63, R74, R108, R109 and R119: an active edge of FOUL_x, left waiting by a sample tick
or made now; it wakes the pit link, with foul detection off too (as in WakesEndQuiet, with its log
entries 9 and 23). With foul detection of the lane on, a newest ball in flight launched no more than
the foul window before the acceptance is a foul ball, in the scored-ball copy too where it is the
scored ball, and the foul indication is raised for the foul lamp time; a pending foul and the other
records stay as they are. Otherwise a pending foul stands for the foul window from the acceptance,
or, under the ESTOP freeze, frozen with its full length. Nothing else of the Transit Monitor
changes, and with detection off nothing reaches it. For an acceptance that a sample tick left
waiting, whether detection is on, and by which polarity the line is active, is read at this row: the
model's choice (log entry 4), since R63 names the enable and not the moment. -/
def Obligations.FoulsAttributed : Prop :=
  ∀ (x : Lane) (st : LineState) (time : Nat) (s : State),
    s.Gives (.foul x) .active (polarity (.foul x) s) st time →
    let l := s.laneTransit x
    let window := s.command.timing.foulWindow
    let near := fun b : BallRecord => ∃ t, b.launch = some t ∧ t ≤ time ∧ time - t ≤ window
    let lane := fun l : LaneTransit => { s.transit with lanes := s.transit.lanes.set x l }
    ∃ t, exec (.foulEdge x) s = .next t ∧ s.Wakes t ∧
      t.line.lines = (s.risen (.foul x) st time).line.lines ∧
      t.seqs = s.seqs ∧ t.loop = s.loop ∧ t.command = s.command ∧ t.account = s.account ∧
      t.roster = s.roster ∧ t.score = s.score ∧
      (s.command.lines.foulOn.get x = false →
        t.transit = s.transit ∧ t.line.foulLamp = s.line.foulLamp) ∧
      (s.command.lines.foulOn.get x = true →
        (∀ b, l.inFlight.getLast? = some b → near b →
          t.transit = lane { l with
            inFlight := l.inFlight.dropLast ++ [{ b with foul := true }]
            copy := if (s.seq x).scored = some b.id then
              l.copy.map (fun c => { c with foul := true }) else l.copy } ∧
          t.line.foulLamp = s.line.foulLamp.set x
            (some (s.now + s.command.timing.foulLamp * 1000))) ∧
        ((∀ b, l.inFlight.getLast? = some b → ¬near b) →
          t.transit = lane { l with
            pendingFoul := if s.transit.frozen = true then .frozen window
              else .running (time + window) } ∧
          t.line.foulLamp = s.line.foulLamp))

/-- R61, R62, R68, R71, R72, R74, R95 and R119: an active edge of ESTOP, or an active first
acceptance, left waiting by a sample tick or made now. With the latch clear it sets, ESTOP is
offered (ahead of the FAULT notices, the model's choice, log entry 35), both lanes are in
FAULT(ESTOP) with no order out, the transit timers are frozen, power and motor are OFF and the lamps
FAST. With the latch set nothing but the line's level changes. That an acceptance may wait for this
row, and that a first one is active by the polarity in force at it, is the model's choice (log entry
4). No track place is waited for here, and a lane in READY or HELD has no order out. -/
def Obligations.EstopLatches : Prop :=
  ∀ (c : Instr) (kind : EdgeKind) (st : LineState) (time : Nat) (s : State),
    (c = .estopActiveEdge ∧ kind = .active) ∨
      (c = .firstAcceptance .estop (polarity .estop s) ∧ kind = .first) →
    s.Gives .estop kind (polarity .estop s) st time →
    (s.line.estop = true → exec c s = .next (finish (s.risen .estop st time))) ∧
    (s.line.estop = false → s.transit.waiters = [] →
      (∀ x, (s.seq x).state = .ready ∨ (s.seq x).state = .held → (s.seq x).order = none) →
      ∃ t, exec c s = .next t ∧ t.line.estop = true ∧
        t.line.lines = (s.risen .estop st time).line.lines ∧
        (offer .estop s).loop.notices <+: t.loop.notices ∧
        (∀ x, (t.seq x).state = .fault ∧ (t.seq x).fault = some ⟨.estop, none⟩ ∧
          ((s.seq x).state ≠ .fault → (t.seq x).order = none) ∧
          (∀ e, (t.laneTransit x).flightTimer ≠ .running e ∧
            (t.laneTransit x).pitTimer ≠ .running e ∧
            (t.laneTransit x).pendingFoul ≠ .running e)) ∧
        t.transit.frozen = true ∧
        (∀ e, t.transit.trackTimer ≠ .running e ∧ t.transit.idleTimer ≠ .running e) ∧
        t.line.outputs.pairPower = false ∧ t.line.outputs.returnMotor = false ∧
        t.line.outputs.lamp = .both .fast)

/-! ### Timers and samples -/

/-- R83, R90, R94 and R113. At the settle expiry a lane in SETTLE is in SCAN with a SCAN issued:
posted with its timer at a pinsetter that is READY with an empty slot, wanted where it is not
READY. At the expiry of the order timer a lane in STARTING, CYCLING, SCAN, RECOVER or PARKING is
in FAULT with CYCLE_TIMEOUT, or SCAN_TIMEOUT for a SCAN, and at the expiry of the pit timer a lane
in STARTING, CYCLING or RECOVER is in FAULT(PIT_JAM). The order is out no more, a lift order's
reservation is released, and the scored ball of a SCAN is dropped. The resume order is FULL_SET with
a start pending and from STARTING, the one it was in RECOVER, PARK from PARKING and with the park
pending, and else the order that was out. No track place is asked for here.

R80, R83, R85, R91 to R93, R99 and R101: what the end of the outstanding order leads to, reported
with no lift and no change of condition. DONE in STARTING sets the standing set and is followed
by the rest point; so does FULL_SET or RESPOT in CYCLING that reports the set it was to make, and
another is FAULT(SET_MISMATCH); LIFT_ONLY leaves the standing set; PARK is PARKED. In RECOVER,
CLEAR is followed by the resume order, SCAN where there is none; a lift order asks for its places
first, one for each ball in the pit, and waits for them in RECOVER. The resume order is followed
by the rest point. A SCAN in SCAN that reports a pin which did not stand is made a second time;
otherwise, and at the second scan with the pins that stood before, which is SCAN_DOUBT, the ball
is scored and the lane cycles, with RESPOT or FULL_SET by the disposition, once it has its
places; that a ball with no slot takes FULL_SET on a lane that is not practice too is the model's
choice (log entry 53). REFUSED is FAULT(ORDER_REFUSED) with the station's reason. -/
def Obligations.SequencerTimersExpire : Prop :=
  (∀ (x : Lane) (s : State),
    ((s.seq x).state = .settle → (∃ e, (s.seq x).settleTimer = some e ∧ e ≤ s.now) →
      ∃ t, exec (.settleExpiry x) s = .next t ∧ (t.seq x).state = .scan ∧
        (t.seq x).settleTimer = none ∧ (t.seq x).scored = (s.seq x).scored ∧
        (t.seq x).standing = (s.seq x).standing ∧ t.seq x.other = s.seq x.other ∧
        t.transit = s.transit ∧ t.loop = s.loop ∧
        ((s.station (.pin x)).state = .ready → (s.station (.pin x)).slot = none →
          (t.seq x).order = some ⟨.scan, true⟩ ∧
          (t.seq x).orderTimer = some (s.now + s.command.timing.scanTimeout) ∧
          (t.station (.pin x)).slot =
            some ⟨.pin .scan, (s.station (.pin x)).nextTag, false⟩) ∧
        ((s.station (.pin x)).state ≠ .ready → (t.seq x).order = some ⟨.scan, false⟩)) ∧
    (∀ o e, (s.seq x).order = some ⟨o, true⟩ → (s.seq x).place = none →
      s.transit.waiters = [] →
      let q := s.seq x
      let l := s.laneTransit x
      let out := fun (c : Instr) (code : FaultCode) => ∃ t, exec c s = .next t ∧
        (t.seq x).state = .fault ∧ (t.seq x).fault = some ⟨code, none⟩ ∧
        (t.seq x).order = none ∧ (t.seq x).orderTimer = none ∧
        (t.station (.pin x)).slot = none ∧ (q.state = .scan → (t.seq x).scored = none) ∧
        (q.startPending = false → q.parkPending = false → q.state = .cycling ∨ q.state = .scan →
          (t.seq x).resume = some o) ∧
        (q.state ≠ .scan ∨ s.NoneLeaves →
          s.EntersFault x code none t ∧ t.seq x.other = s.seq x.other ∧
          (t.laneTransit x).inFlight.length = l.inFlight.length ∧
          (t.laneTransit x).pitHold.length = l.pitHold.length ∧
          (o ≠ .scan → o ≠ .clear → o ≠ .park → (t.laneTransit x).reservation = 0 ∧
            (t.laneTransit x).liftOut = false ∧ (t.laneTransit x).pitTimer = .stopped) ∧
          t.account = s.account ∧ t.roster = s.roster ∧ t.score = s.score ∧
          t.loop = (offer (.fault x code none) s).loop)
      let busy := q.state = .starting ∨ q.state = .cycling ∨ q.state = .recover
      (q.orderTimer = some e → e ≤ s.now →
        busy ∨ q.state = .scan ∨ q.state = .parking →
        (o ≠ .scan → out (.orderTimeout x) .cycleTimeout) ∧
        (o = .scan → out (.orderTimeout x) .scanTimeout)) ∧
      (l.pitTimer = .running e → e ≤ s.now → busy → out (.pitTimeout x) .pitJam))) ∧
  ∀ (x : Lane) (o : PinOrder) (rep : Report) (n : BitVec 8) (q tag taken : Bool) (s : State),
    s.link.round = some ⟨n, q, .pin x, false⟩ → s.command.slot = none →
    s.Settled (.pin x) rep → (s.station (.pin x)).slot = some ⟨.pin o, tag, taken⟩ →
    (s.seq x).order = some ⟨o, true⟩ → s.transit.waiters = [] → (s.seq x).place = none →
    (s.seq x).startPending = false →
    let c := Instr.reportArrival (.pin x) rep
    let p := s.seq x
    let hold := (s.laneTransit x).pitHold
    let rests := fun set : PinSet => ∃ t, exec c s = .next t ∧ (t.seq x).standing = set ∧
      t.seq x.other = s.seq x.other ∧ t.score = s.score ∧ t.roster = s.roster ∧
      (p.parkPending = true → (t.seq x).state = .parking ∧
        (t.seq x).order = some ⟨.park, true⟩) ∧
      (p.parkPending = false → p.holds = .empty →
        (t.seq x).state = .ready ∧ (t.seq x).order = none) ∧
      (p.parkPending = false → p.holds ≠ .empty → hold = [] →
        (t.seq x).state = .held ∧ (t.seq x).order = none) ∧
      (p.parkPending = false → p.holds ≠ .empty → hold ≠ [] →
        (t.seq x).state = .liftWait ∨ (t.seq x).state = .cycling)
    (∀ set, rep.echo = some ⟨tag, .done set⟩ →
      (p.state = .starting → rests set) ∧
      (p.state = .cycling →
        (o = .liftOnly → rests p.standing) ∧
        (∀ made, o = .respot made ∨ (o = .fullSet ∧ made = PinSet.full) →
          (set = made → rests set) ∧
          (set ≠ made → p.parkPending = false → ∃ t, exec c s = .next t ∧
            (t.seq x).state = .fault ∧ (t.seq x).fault = some ⟨.setMismatch, none⟩ ∧
            (t.seq x).resume = none ∧ (t.seq x).standing = set ∧
            (offer (.fault x .setMismatch none) s).loop.notices <+: t.loop.notices))) ∧
      (p.state = .parking ∨ (p.state = .recover ∧ o = .park) →
        ∃ t, exec c s = .next t ∧ (t.seq x).state = .parked ∧ (t.seq x).order = none ∧
          (t.seq x).parkPending = false ∧ (t.seq x).standing = p.standing ∧
          (t.station (.pin x)).cell = some (.pin false false)) ∧
      (p.state = .recover → o = .clear →
        (p.resume = none → ∃ t, exec c s = .next t ∧ (t.seq x).state = .recover ∧
          (t.seq x).clearStep = false ∧ (t.seq x).order = some ⟨.scan, true⟩ ∧
          (t.station (.pin x)).slot =
            some ⟨.pin .scan, (s.station (.pin x)).nextTag, false⟩) ∧
        (p.resume = some .park → ∃ t, exec c s = .next t ∧ (t.seq x).state = .recover ∧
          (t.seq x).clearStep = false ∧ (t.seq x).order = some ⟨.park, true⟩) ∧
        (∀ lift, p.resume = some lift → lift = .fullSet ∨ lift = .liftOnly ∨
            (∃ u, lift = .respot u) →
          ∃ t, exec c s = .next t ∧ (t.seq x).state = .recover ∧ (t.seq x).clearStep = false ∧
            (t.seq x).resume = some lift ∧ (t.seq x).standing = p.standing ∧
            (s.transit.fault = none → hold.length ≤ freePlaces s.transit →
              (t.seq x).order = some ⟨lift, true⟩ ∧ (t.seq x).place = none ∧
              (t.laneTransit x).reservation = hold.length ∧
              (t.station (.pin x)).slot =
                some ⟨.pin lift, (s.station (.pin x)).nextTag, false⟩) ∧
            (s.transit.fault ≠ none ∨ freePlaces s.transit < hold.length →
              (t.seq x).order = none ∧ (t.seq x).place = some ⟨hold.length, lift⟩ ∧
              t.transit.waiters = [⟨x, hold.length⟩] ∧ (t.station (.pin x)).slot = none))) ∧
      (p.state = .recover → o ≠ .clear → o ≠ .park → p.resume.getD .scan = o →
        rests (if o = .liftOnly then p.standing else set)) ∧
      (p.state = .scan → o = .scan →
        (set.within p.standing = false → p.retry = false → ∃ t, exec c s = .next t ∧
          (t.seq x).state = .scan ∧ (t.seq x).retry = true ∧ (t.seq x).scored = p.scored ∧
          (t.seq x).order = some ⟨.scan, true⟩ ∧
          (t.seq x).orderTimer = some (s.now + s.command.timing.scanTimeout) ∧
          t.score = s.score ∧ t.roster = s.roster) ∧
        (set.within p.standing = true ∨ p.retry = true → ∀ sc,
          (s.laneTransit x).copy = some sc →
          let doubt := !set.within p.standing
          let used := if doubt = true then set &&& p.standing else set
          let cycles := fun (order : PinOrder) (t : State) =>
            (t.seq x).scored = none ∧ (t.seq x).retry = false ∧
            (t.seq x).standing = p.standing ∧ (t.laneTransit x).copy = none ∧
            (doubt = true → (offer (.scanDoubt x set p.standing used) s).loop.notices <+:
              t.loop.notices) ∧
            (((t.seq x).state = .cycling ∧ (t.seq x).order = some ⟨order, true⟩) ∨
              ((t.seq x).state = .liftWait ∧ (t.seq x).place = some ⟨hold.length, order⟩))
          (p.practice = true ∨ sc.slot = none → ∃ t, exec c s = .next t ∧
            cycles .fullSet t ∧ t.score = s.score ∧ t.roster = s.roster ∧
            (s.transit.fault = none → hold.length ≤ freePlaces s.transit →
              (t.seq x).state = .cycling)) ∧
          (∀ k, p.practice = false → sc.slot = some k →
            let r : BallResult :=
              { slot := k, lane := x, before := p.standing, after := used, foul := sc.foul
                inferred := sc.inferred, doubt := doubt, speed := sc.speed }
            ∃ t, exec c s = .next t ∧ t.score = (ballResult r s).1.score ∧
              t.roster = (ballResult r s).1.roster ∧ t.account = (ballResult r s).1.account ∧
              ((ballResult r s).2 = .newRack → cycles .fullSet t) ∧
              (∀ u, (ballResult r s).2 = .sameRack u → cycles (.respot u) t))))) ∧
    (∀ reason, rep.echo = some ⟨tag, .refused reason⟩ →
      p.state = .starting ∨ p.state = .cycling ∨ p.state = .scan ∨ p.state = .recover ∨
        p.state = .parking →
      ∃ t, exec c s = .next t ∧ (t.seq x).state = .fault ∧
        (t.seq x).fault = some ⟨.orderRefused, some reason⟩ ∧ (t.seq x).order = none ∧
        (p.parkPending = false → p.state = .cycling ∨ p.state = .scan →
          (t.seq x).resume = some o) ∧
        (p.state = .parking → (t.seq x).resume = some .park) ∧
        (p.state = .recover → (t.seq x).resume = p.resume) ∧
        ((s.seq x).state = .scan → (t.seq x).scored = none))

/-- R105, R89, R110, R114, R117, R121, R74 and R164. At the flight timeout the oldest ball is
written off with BALL_LOST and the lost-on-lane count rises up to 4. A dead ball that was the
only one does nothing else; with others behind it, the flight timer runs on for the next one from
its own launch, or, where that time has gone by, the next one is lost in the same event; that a
timer due at this very millisecond runs on is the model's choice (log entry 18). The scored ball
is void: the sequencer's reference and the copy are gone, the standing set and the scores stay,
and the lane is at its rest point. Where that write-off leaves a lane under a close watch clear
of balls, the close completes after BALL_LOST (log entry 50), with its record, the park and the
reply (R120, R175). No UP bowler has a withdrawal pending there, and the head of the waiter list,
if there is one, is one that cannot be granted, as every step leaves it (TrackFitsKept). At the
track timeout the return fault TRACK_JAM stands. The pending foul, the idle timer and the foul
indication end at their expiry, and centre time goes STALE at its own; nothing else changes. -/
def Obligations.TransitTimersExpire : Prop :=
  ∀ (x : Lane) (e : Nat) (s : State), e ≤ s.now →
    let last := (s.laneTransit x).closeWatch = true ∧ (s.laneTransit x).pitHold = [] ∧
      ∀ b ∈ s.transit.track, b.lane ≠ x
    let lost := fun (b : BallRecord) (u : State) => offer (.ballLost x (b.launch.getD 0)) u
    (∀ b, (s.laneTransit x).flightTimer = .running e → (s.laneTransit x).inFlight = [b] →
      (s.seq x).scored ≠ some b.id → last → s.NoneLeaves →
      ∃ t, exec (.flightTimeout x) s = .next t ∧ (t.laneTransit x).inFlight = [] ∧
        (t.laneTransit x).lost = min 4 ((s.laneTransit x).lost + 1) ∧
        (t.laneTransit x).flightTimer = .stopped ∧
        t.transit.writeOffs = s.transit.writeOffs + 1 ∧
        (lost b s).CloseCompletes x (settlement x s) t) ∧
    (∀ b, (s.laneTransit x).flightTimer = .running e → (s.laneTransit x).inFlight = [b] →
      (s.seq x).scored ≠ some b.id → ¬last →
      exec (.flightTimeout x) s = .next (finish
        (((offer (.ballLost x (b.launch.getD 0)) s).modTransit fun m =>
          { m with writeOffs := m.writeOffs + 1 }).modLane x fun l =>
          { l with
            inFlight := [], lost := min 4 (l.lost + 1), flightTimer := .stopped }))) ∧
    (∀ b c rest, (s.laneTransit x).flightTimer = .running e →
      (s.laneTransit x).inFlight = b :: c :: rest → (s.seq x).scored ≠ some b.id →
      s.transit.frozen = false →
      let next := c.launch.getD 0 + s.command.timing.flightTimeout
      (s.now ≤ next → exec (.flightTimeout x) s = .next (finish
        (((offer (.ballLost x (b.launch.getD 0)) s).modTransit fun m =>
          { m with writeOffs := m.writeOffs + 1 }).modLane x fun l =>
          { l with
            inFlight := c :: rest, lost := min 4 (l.lost + 1), flightTimer := .running next }))) ∧
      (next < s.now → rest = [] → (s.seq x).scored ≠ some c.id →
        ∃ t, exec (.flightTimeout x) s = .next t ∧ (t.laneTransit x).inFlight = [] ∧
          (t.laneTransit x).lost = min 4 ((s.laneTransit x).lost + 2) ∧
          (t.laneTransit x).flightTimer = .stopped ∧
          t.transit.writeOffs = s.transit.writeOffs + 2 ∧
          (¬last → t.seqs = s.seqs ∧ t.loop = (lost c (lost b s)).loop) ∧
          (last → s.NoneLeaves →
            (lost c (lost b s)).CloseCompletes x (settlement x s) t))) ∧
    (∀ b, (s.laneTransit x).flightTimer = .running e → (s.laneTransit x).inFlight = [b] →
      (s.seq x).scored = some b.id → (s.seq x).state = .ballOut → last → s.NoneLeaves →
      ∃ t, exec (.flightTimeout x) s = .next t ∧ (t.laneTransit x).inFlight = [] ∧
        (t.laneTransit x).copy = none ∧ t.transit.writeOffs = s.transit.writeOffs + 1 ∧
        ((lost b s).modSeq x fun q => { q with
          state := .held, scored := none, retry := false }).CloseCompletes x
            (settlement x s) t) ∧
    (∀ b, (s.laneTransit x).flightTimer = .running e → (s.laneTransit x).inFlight = [b] →
      (s.seq x).scored = some b.id → (s.seq x).state = .ballOut →
      ¬last → s.NoneLeaves → s.HeadWaits →
      let q := s.seq x
      ∃ t, exec (.flightTimeout x) s = .next t ∧ (t.laneTransit x).inFlight = [] ∧
        (t.laneTransit x).copy = none ∧ (t.laneTransit x).flightTimer = .stopped ∧
        (t.laneTransit x).lost = min 4 ((s.laneTransit x).lost + 1) ∧
        t.transit.writeOffs = s.transit.writeOffs + 1 ∧ (t.seq x).scored = none ∧
        (t.seq x).standing = q.standing ∧ t.seq x.other = s.seq x.other ∧ t.score = s.score ∧
        t.roster = s.roster ∧ t.account = s.account ∧
        t.loop = (offer (.ballLost x (b.launch.getD 0)) s).loop ∧
        (q.parkPending = true → (t.seq x).state = .parking) ∧
        (q.parkPending = false → q.holds = .empty → (t.seq x).state = .ready) ∧
        (q.parkPending = false → q.holds ≠ .empty → (s.laneTransit x).pitHold = [] →
          (t.seq x).state = .held) ∧
        (q.parkPending = false → q.holds ≠ .empty → (s.laneTransit x).pitHold ≠ [] →
          (t.seq x).state = .liftWait ∨ (t.seq x).state = .cycling)) ∧
    (s.transit.trackTimer = .running e → s.transit.fault = none →
      exec .trackTimeout s = .next (finish
        ((offer (.returnFault .trackJam none) s).modTransit fun m =>
          { m with trackTimer := .stopped, fault := some ⟨.trackJam, none⟩ }))) ∧
    ((s.laneTransit x).pendingFoul = .running e →
      exec (.pendingFoulExpiry x) s = .next (finish
        (s.modLane x fun l => { l with pendingFoul := .stopped }))) ∧
    (s.transit.idleTimer = .running e →
      exec .idleExpiry s = .next (finish (s.modTransit fun m => { m with idleTimer := .stopped }))) ∧
    (s.line.foulLamp.get x = some e →
      exec (.foulIndicationExpiry x) s = .next (finish { s with line :=
        { s.line with foulLamp := s.line.foulLamp.set x none } })) ∧
    (s.account.staleTimer = some e →
      exec .centreTimeStale s = .next (finish { s with account :=
        { s.account with
          staleTimer := none
          centre := s.account.centre.map fun c => { c with stale := true } } }))

/-- R120 and R175: at the close timeout what is left of the lane's balls is written off, its
flight, pit and foul timers are stopped and its lost-on-lane count stays; the account is CLOSED,
and its last settlement is that of the account by R176 and R177 and says whether any ball was
left.

R22, R100 and R175, steps 4 to 6: the lane has the park, by its state. In READY and HELD it is in
PARKING with PARK issued; so it is in BALL_OUT, SETTLE and SCAN, where the scored ball is dropped
and a SCAN withdrawn, and in LIFT_WAIT, where the place request is withdrawn; in CYCLING and
STARTING it runs on with the park pending; in RECOVER and FAULT the resume order is PARK; PARKING
and PARKED stay. SETTLEMENT is offered with the record, and an individual LANE_CLOSE that holds
the slot is answered DONE with it. The places that the write-off frees are here granted to no
request of this lane, and no UP bowler has a withdrawal pending. -/
def Obligations.CloseTimesOut : Prop :=
  ∀ (x : Lane) (e : Nat) (s : State), (s.acct x).closeTimer = some e → e ≤ s.now →
    let n := (s.laneTransit x).inFlight.length + (s.laneTransit x).pitHold.length +
      (s.transit.track.filter fun b => b.lane = x).length
    ∃ t r, exec (.closeTimeout x) s = .next t ∧ (t.acct x).state = .closed ∧
      (t.acct x).closeTimer = none ∧ (t.acct x).last = some r ∧
      r = settlement x (s.modAcct x fun a => { a with writeOffs := decide (1 ≤ n) }) ∧
      r.writeOffs = decide (1 ≤ n) ∧ r.lane = x ∧ r.credit = (s.acct x).credit ∧
      (t.laneTransit x).inFlight = [] ∧ (t.laneTransit x).pitHold = [] ∧
      t.transit.track = s.transit.track.filter (fun b => b.lane ≠ x) ∧
      t.transit.writeOffs = s.transit.writeOffs + BitVec.ofNat 32 n ∧
      (t.laneTransit x.other).inFlight.length = (s.laneTransit x.other).inFlight.length ∧
      (t.seq x).holds.closing = false ∧ (t.laneTransit x).lost = (s.laneTransit x).lost ∧
      (t.laneTransit x).pendingFoul = .stopped ∧ (t.laneTransit x).flightTimer = .stopped ∧
      (t.laneTransit x).pitTimer = .stopped ∧
      (s.NoneLeaves →
        (s.modTransit fun m =>
          { m with track := m.track.filter fun b => b.lane ≠ x }).HeadWaits ∨
          (∀ w ∈ s.transit.waiters, w.lane ≠ x) →
        (s.modAcct x fun a => { a with writeOffs := decide (1 ≤ n) }).CloseCompletes x r t ∧
        (s.transit.waiters = [] → t.seq x.other = s.seq x.other))

/-- R60, R61, R56 and R163: at a sample tick the time base goes on by half a millisecond (log entry
2). Each line whose level is known compares the sample with its accepted level: equal, the run count
is 0; different, the run count rises, and at the filter count the level is accepted at this time, an
active edge or an inactive one by the line's polarity. A line whose level is unknown counts a run of
equal samples, and accepts its first level at the filter count. An acceptance waits in the line's
events, the model's own field (log entry 23), for the row that takes its step (log entry 4).
PIT_WAKE_LINE is filtered so with count 3, and of its acceptances an edge to LOW alone waits, a
first one making no wake (log entry 24). Every other block stays. -/
def Obligations.SamplesFiltered : Prop :=
  ∀ (v : Samples) (l : InputLine) (s : State), s.now + 1 < 2 ^ 48 →
    let st := s.line.lines.get l
    let w := v.lines.get l
    let set := s.command.lines.settings.get l
    let run := fun (st : LineState) (w : Level) =>
      if st.run = 0 ∨ w ≠ st.runLevel then 1 else st.run + 1
    let wake := s.line.wake
    ∃ t, exec (.sampleTick v) s = .next t ∧
      t.time = (if s.time.half = true then ⟨s.now + 1, false, s.time.nextTick⟩
        else ⟨s.now, true, s.time.nextTick⟩) ∧
      (st.accepted = some w → t.line.lines.get l = { st with run := 0 }) ∧
      (st.accepted = some w.flip → st.run + 1 < set.count →
        t.line.lines.get l = { st with run := st.run + 1 }) ∧
      (st.accepted = some w.flip → set.count ≤ st.run + 1 →
        t.line.lines.get l = { st with
          accepted := some w, run := 0
          events := st.events ++
            [⟨if w = set.polarity then .active else .inactive, w, t.now⟩] }) ∧
      (st.accepted = none → run st w < set.count →
        t.line.lines.get l = { st with run := run st w, runLevel := w }) ∧
      (st.accepted = none → set.count ≤ run st w →
        t.line.lines.get l = { st with
          accepted := some w, run := 0, runLevel := w
          events := st.events ++ [⟨.first, w, t.now⟩] }) ∧
      ((∀ e ∈ wake.events, e.kind = .active) →
        (wake.accepted = some v.wake → t.line.wake = { wake with run := 0 }) ∧
        (wake.accepted = some v.wake.flip →
          t.line.wake =
            if wake.run + 1 < 3 then { wake with run := wake.run + 1 }
            else { wake with
              accepted := some v.wake, run := 0
              events := wake.events ++
                if v.wake = .low then [⟨.active, .low, t.now⟩] else [] }) ∧
        (wake.accepted = none →
          t.line.wake =
            if run wake v.wake < 3 then { wake with run := run wake v.wake, runLevel := v.wake }
            else { wake with accepted := some v.wake, run := 0, runLevel := v.wake })) ∧
      t.loop = s.loop ∧ t.command = s.command ∧ t.seqs = s.seqs ∧ t.transit = s.transit ∧
      t.roster = s.roster ∧ t.score = s.score ∧ t.account = s.account
end

