-- ==== Sys2Proof/Laws/State.lean ====
section
/-! SUPPORT. The small laws of the state: for each update of Machine/Ops.lean, every block that it
leaves and what it reads as afterwards. -/

namespace Sys2Proof

theorem Lane.other_other (x : Lane) : x.other.other = x := by cases x <;> rfl

@[simp] theorem Lines.get_set_same {α : Type} (v : Lines α) (l : InputLine) (a : α) :
    (v.set l a).get l = a := by
  cases l with
  | estop => rfl
  | foul x => cases x <;> rfl
  | launch x => cases x <;> rfl
  | pit x => cases x <;> rfl

theorem Lines.get_set_ne {α : Type} (v : Lines α) (l m : InputLine) (a : α) (h : m ≠ l) :
    (v.set l a).get m = v.get m := by
  rcases l with (_ | _) | (_ | _) | (_ | _) | _ <;>
    rcases m with (_ | _) | (_ | _) | (_ | _) | _ <;> first | rfl | exact absurd rfl h

end Sys2Proof

namespace Sys2Proof.Machine

@[simp] theorem LanePair.get_set_same {α : Type} (p : LanePair α) (x : Lane) (v : α) :
    (p.set x v).get x = v := by cases x <;> rfl

theorem LanePair.get_set_ne {α : Type} (p : LanePair α) (x y : Lane) (v : α) (h : y ≠ x) :
    (p.set x v).get y = p.get y := by cases x <;> cases y <;> first | rfl | simp_all

@[simp] theorem LanePair.get_A {α : Type} (p : LanePair α) : p.get .A = p.a := rfl

@[simp] theorem LanePair.get_B {α : Type} (p : LanePair α) : p.get .B = p.b := rfl

@[simp] theorem Stations.get_set_same {α : Type} (v : Stations α) (p : Position) (a : α) :
    (v.set p a).get p = a := by
  cases p with
  | ret => rfl
  | pin x => cases x <;> rfl
  | con x => cases x <;> rfl

theorem Stations.get_set_ne {α : Type} (v : Stations α) (p q : Position) (a : α) (h : q ≠ p) :
    (v.set p a).get q = v.get q := by
  rcases p with (_ | _) | _ | (_ | _) <;> rcases q with (_ | _) | _ | (_ | _) <;>
    first | rfl | exact absurd rfl h

@[simp] theorem State.modSeq_pending (s : State) (x : Lane) (f : Sequencer → Sequencer) :
    (s.modSeq x f).pending = s.pending := rfl

@[simp] theorem State.modSeq_loop (s : State) (x : Lane) (f : Sequencer → Sequencer) :
    (s.modSeq x f).loop = s.loop := rfl

@[simp] theorem State.modSeq_command (s : State) (x : Lane) (f : Sequencer → Sequencer) :
    (s.modSeq x f).command = s.command := rfl

@[simp] theorem State.modSeq_link (s : State) (x : Lane) (f : Sequencer → Sequencer) :
    (s.modSeq x f).link = s.link := rfl

@[simp] theorem State.modSeq_line (s : State) (x : Lane) (f : Sequencer → Sequencer) :
    (s.modSeq x f).line = s.line := rfl

@[simp] theorem State.modSeq_transit (s : State) (x : Lane) (f : Sequencer → Sequencer) :
    (s.modSeq x f).transit = s.transit := rfl

@[simp] theorem State.modSeq_roster (s : State) (x : Lane) (f : Sequencer → Sequencer) :
    (s.modSeq x f).roster = s.roster := rfl

@[simp] theorem State.modSeq_score (s : State) (x : Lane) (f : Sequencer → Sequencer) :
    (s.modSeq x f).score = s.score := rfl

@[simp] theorem State.modSeq_account (s : State) (x : Lane) (f : Sequencer → Sequencer) :
    (s.modSeq x f).account = s.account := rfl

@[simp] theorem State.modSeq_time (s : State) (x : Lane) (f : Sequencer → Sequencer) :
    (s.modSeq x f).time = s.time := rfl

@[simp] theorem State.modSeq_freeChoices (s : State) (x : Lane) (f : Sequencer → Sequencer) :
    (s.modSeq x f).freeChoices = s.freeChoices := rfl

@[simp] theorem State.modSeq_nextBall (s : State) (x : Lane) (f : Sequencer → Sequencer) :
    (s.modSeq x f).nextBall = s.nextBall := rfl

@[simp] theorem State.modTransit_pending (s : State) (f : Transit → Transit) :
    (s.modTransit f).pending = s.pending := rfl

@[simp] theorem State.modTransit_loop (s : State) (f : Transit → Transit) :
    (s.modTransit f).loop = s.loop := rfl

@[simp] theorem State.modTransit_command (s : State) (f : Transit → Transit) :
    (s.modTransit f).command = s.command := rfl

@[simp] theorem State.modTransit_link (s : State) (f : Transit → Transit) :
    (s.modTransit f).link = s.link := rfl

@[simp] theorem State.modTransit_line (s : State) (f : Transit → Transit) :
    (s.modTransit f).line = s.line := rfl

@[simp] theorem State.modTransit_seqs (s : State) (f : Transit → Transit) :
    (s.modTransit f).seqs = s.seqs := rfl

@[simp] theorem State.modTransit_roster (s : State) (f : Transit → Transit) :
    (s.modTransit f).roster = s.roster := rfl

@[simp] theorem State.modTransit_score (s : State) (f : Transit → Transit) :
    (s.modTransit f).score = s.score := rfl

@[simp] theorem State.modTransit_account (s : State) (f : Transit → Transit) :
    (s.modTransit f).account = s.account := rfl

@[simp] theorem State.modTransit_time (s : State) (f : Transit → Transit) :
    (s.modTransit f).time = s.time := rfl

@[simp] theorem State.modTransit_freeChoices (s : State) (f : Transit → Transit) :
    (s.modTransit f).freeChoices = s.freeChoices := rfl

@[simp] theorem State.modTransit_nextBall (s : State) (f : Transit → Transit) :
    (s.modTransit f).nextBall = s.nextBall := rfl

@[simp] theorem State.modLane_pending (s : State) (x : Lane) (f : LaneTransit → LaneTransit) :
    (s.modLane x f).pending = s.pending := rfl

@[simp] theorem State.modLane_loop (s : State) (x : Lane) (f : LaneTransit → LaneTransit) :
    (s.modLane x f).loop = s.loop := rfl

@[simp] theorem State.modLane_command (s : State) (x : Lane) (f : LaneTransit → LaneTransit) :
    (s.modLane x f).command = s.command := rfl

@[simp] theorem State.modLane_link (s : State) (x : Lane) (f : LaneTransit → LaneTransit) :
    (s.modLane x f).link = s.link := rfl

@[simp] theorem State.modLane_line (s : State) (x : Lane) (f : LaneTransit → LaneTransit) :
    (s.modLane x f).line = s.line := rfl

@[simp] theorem State.modLane_seqs (s : State) (x : Lane) (f : LaneTransit → LaneTransit) :
    (s.modLane x f).seqs = s.seqs := rfl

@[simp] theorem State.modLane_roster (s : State) (x : Lane) (f : LaneTransit → LaneTransit) :
    (s.modLane x f).roster = s.roster := rfl

@[simp] theorem State.modLane_score (s : State) (x : Lane) (f : LaneTransit → LaneTransit) :
    (s.modLane x f).score = s.score := rfl

@[simp] theorem State.modLane_account (s : State) (x : Lane) (f : LaneTransit → LaneTransit) :
    (s.modLane x f).account = s.account := rfl

@[simp] theorem State.modLane_time (s : State) (x : Lane) (f : LaneTransit → LaneTransit) :
    (s.modLane x f).time = s.time := rfl

@[simp] theorem State.modLane_freeChoices (s : State) (x : Lane) (f : LaneTransit → LaneTransit) :
    (s.modLane x f).freeChoices = s.freeChoices := rfl

@[simp] theorem State.modLane_nextBall (s : State) (x : Lane) (f : LaneTransit → LaneTransit) :
    (s.modLane x f).nextBall = s.nextBall := rfl

@[simp] theorem State.modAcct_pending (s : State) (x : Lane) (f : Account → Account) :
    (s.modAcct x f).pending = s.pending := rfl

@[simp] theorem State.modAcct_loop (s : State) (x : Lane) (f : Account → Account) :
    (s.modAcct x f).loop = s.loop := rfl

@[simp] theorem State.modAcct_command (s : State) (x : Lane) (f : Account → Account) :
    (s.modAcct x f).command = s.command := rfl

@[simp] theorem State.modAcct_link (s : State) (x : Lane) (f : Account → Account) :
    (s.modAcct x f).link = s.link := rfl

@[simp] theorem State.modAcct_line (s : State) (x : Lane) (f : Account → Account) :
    (s.modAcct x f).line = s.line := rfl

@[simp] theorem State.modAcct_seqs (s : State) (x : Lane) (f : Account → Account) :
    (s.modAcct x f).seqs = s.seqs := rfl

@[simp] theorem State.modAcct_transit (s : State) (x : Lane) (f : Account → Account) :
    (s.modAcct x f).transit = s.transit := rfl

@[simp] theorem State.modAcct_roster (s : State) (x : Lane) (f : Account → Account) :
    (s.modAcct x f).roster = s.roster := rfl

@[simp] theorem State.modAcct_score (s : State) (x : Lane) (f : Account → Account) :
    (s.modAcct x f).score = s.score := rfl

@[simp] theorem State.modAcct_time (s : State) (x : Lane) (f : Account → Account) :
    (s.modAcct x f).time = s.time := rfl

@[simp] theorem State.modAcct_freeChoices (s : State) (x : Lane) (f : Account → Account) :
    (s.modAcct x f).freeChoices = s.freeChoices := rfl

@[simp] theorem State.modAcct_nextBall (s : State) (x : Lane) (f : Account → Account) :
    (s.modAcct x f).nextBall = s.nextBall := rfl

@[simp] theorem State.modLink_pending (s : State) (f : PitLink → PitLink) :
    (s.modLink f).pending = s.pending := rfl

@[simp] theorem State.modLink_loop (s : State) (f : PitLink → PitLink) :
    (s.modLink f).loop = s.loop := rfl

@[simp] theorem State.modLink_command (s : State) (f : PitLink → PitLink) :
    (s.modLink f).command = s.command := rfl

@[simp] theorem State.modLink_line (s : State) (f : PitLink → PitLink) :
    (s.modLink f).line = s.line := rfl

@[simp] theorem State.modLink_seqs (s : State) (f : PitLink → PitLink) :
    (s.modLink f).seqs = s.seqs := rfl

@[simp] theorem State.modLink_transit (s : State) (f : PitLink → PitLink) :
    (s.modLink f).transit = s.transit := rfl

@[simp] theorem State.modLink_roster (s : State) (f : PitLink → PitLink) :
    (s.modLink f).roster = s.roster := rfl

@[simp] theorem State.modLink_score (s : State) (f : PitLink → PitLink) :
    (s.modLink f).score = s.score := rfl

@[simp] theorem State.modLink_account (s : State) (f : PitLink → PitLink) :
    (s.modLink f).account = s.account := rfl

@[simp] theorem State.modLink_time (s : State) (f : PitLink → PitLink) :
    (s.modLink f).time = s.time := rfl

@[simp] theorem State.modLink_freeChoices (s : State) (f : PitLink → PitLink) :
    (s.modLink f).freeChoices = s.freeChoices := rfl

@[simp] theorem State.modLink_nextBall (s : State) (f : PitLink → PitLink) :
    (s.modLink f).nextBall = s.nextBall := rfl

@[simp] theorem State.modStation_pending (s : State) (p : Position) (f : Station → Station) :
    (s.modStation p f).pending = s.pending := rfl

@[simp] theorem State.modStation_loop (s : State) (p : Position) (f : Station → Station) :
    (s.modStation p f).loop = s.loop := rfl

@[simp] theorem State.modStation_command (s : State) (p : Position) (f : Station → Station) :
    (s.modStation p f).command = s.command := rfl

@[simp] theorem State.modStation_line (s : State) (p : Position) (f : Station → Station) :
    (s.modStation p f).line = s.line := rfl

@[simp] theorem State.modStation_seqs (s : State) (p : Position) (f : Station → Station) :
    (s.modStation p f).seqs = s.seqs := rfl

@[simp] theorem State.modStation_transit (s : State) (p : Position) (f : Station → Station) :
    (s.modStation p f).transit = s.transit := rfl

@[simp] theorem State.modStation_roster (s : State) (p : Position) (f : Station → Station) :
    (s.modStation p f).roster = s.roster := rfl

@[simp] theorem State.modStation_score (s : State) (p : Position) (f : Station → Station) :
    (s.modStation p f).score = s.score := rfl

@[simp] theorem State.modStation_account (s : State) (p : Position) (f : Station → Station) :
    (s.modStation p f).account = s.account := rfl

@[simp] theorem State.modStation_time (s : State) (p : Position) (f : Station → Station) :
    (s.modStation p f).time = s.time := rfl

@[simp] theorem State.modStation_freeChoices (s : State) (p : Position) (f : Station → Station) :
    (s.modStation p f).freeChoices = s.freeChoices := rfl

@[simp] theorem State.modStation_nextBall (s : State) (p : Position) (f : Station → Station) :
    (s.modStation p f).nextBall = s.nextBall := rfl

@[simp] theorem State.modLoop_pending (s : State) (f : LoopPort → LoopPort) :
    (s.modLoop f).pending = s.pending := rfl

@[simp] theorem State.modLoop_command (s : State) (f : LoopPort → LoopPort) :
    (s.modLoop f).command = s.command := rfl

@[simp] theorem State.modLoop_link (s : State) (f : LoopPort → LoopPort) :
    (s.modLoop f).link = s.link := rfl

@[simp] theorem State.modLoop_line (s : State) (f : LoopPort → LoopPort) :
    (s.modLoop f).line = s.line := rfl

@[simp] theorem State.modLoop_seqs (s : State) (f : LoopPort → LoopPort) :
    (s.modLoop f).seqs = s.seqs := rfl

@[simp] theorem State.modLoop_transit (s : State) (f : LoopPort → LoopPort) :
    (s.modLoop f).transit = s.transit := rfl

@[simp] theorem State.modLoop_roster (s : State) (f : LoopPort → LoopPort) :
    (s.modLoop f).roster = s.roster := rfl

@[simp] theorem State.modLoop_score (s : State) (f : LoopPort → LoopPort) :
    (s.modLoop f).score = s.score := rfl

@[simp] theorem State.modLoop_account (s : State) (f : LoopPort → LoopPort) :
    (s.modLoop f).account = s.account := rfl

@[simp] theorem State.modLoop_time (s : State) (f : LoopPort → LoopPort) :
    (s.modLoop f).time = s.time := rfl

@[simp] theorem State.modLoop_freeChoices (s : State) (f : LoopPort → LoopPort) :
    (s.modLoop f).freeChoices = s.freeChoices := rfl

@[simp] theorem State.modLoop_nextBall (s : State) (f : LoopPort → LoopPort) :
    (s.modLoop f).nextBall = s.nextBall := rfl

@[simp] theorem State.modLineUnit_pending (s : State) (f : LineUnit → LineUnit) :
    (s.modLineUnit f).pending = s.pending := rfl

@[simp] theorem State.modLineUnit_loop (s : State) (f : LineUnit → LineUnit) :
    (s.modLineUnit f).loop = s.loop := rfl

@[simp] theorem State.modLineUnit_command (s : State) (f : LineUnit → LineUnit) :
    (s.modLineUnit f).command = s.command := rfl

@[simp] theorem State.modLineUnit_link (s : State) (f : LineUnit → LineUnit) :
    (s.modLineUnit f).link = s.link := rfl

@[simp] theorem State.modLineUnit_seqs (s : State) (f : LineUnit → LineUnit) :
    (s.modLineUnit f).seqs = s.seqs := rfl

@[simp] theorem State.modLineUnit_transit (s : State) (f : LineUnit → LineUnit) :
    (s.modLineUnit f).transit = s.transit := rfl

@[simp] theorem State.modLineUnit_roster (s : State) (f : LineUnit → LineUnit) :
    (s.modLineUnit f).roster = s.roster := rfl

@[simp] theorem State.modLineUnit_score (s : State) (f : LineUnit → LineUnit) :
    (s.modLineUnit f).score = s.score := rfl

@[simp] theorem State.modLineUnit_account (s : State) (f : LineUnit → LineUnit) :
    (s.modLineUnit f).account = s.account := rfl

@[simp] theorem State.modLineUnit_time (s : State) (f : LineUnit → LineUnit) :
    (s.modLineUnit f).time = s.time := rfl

@[simp] theorem State.modLineUnit_freeChoices (s : State) (f : LineUnit → LineUnit) :
    (s.modLineUnit f).freeChoices = s.freeChoices := rfl

@[simp] theorem State.modLineUnit_nextBall (s : State) (f : LineUnit → LineUnit) :
    (s.modLineUnit f).nextBall = s.nextBall := rfl

@[simp] theorem State.modInput_pending (s : State) (l : InputLine) (f : LineState → LineState) :
    (s.modInput l f).pending = s.pending := rfl

@[simp] theorem State.modInput_loop (s : State) (l : InputLine) (f : LineState → LineState) :
    (s.modInput l f).loop = s.loop := rfl

@[simp] theorem State.modInput_command (s : State) (l : InputLine) (f : LineState → LineState) :
    (s.modInput l f).command = s.command := rfl

@[simp] theorem State.modInput_link (s : State) (l : InputLine) (f : LineState → LineState) :
    (s.modInput l f).link = s.link := rfl

@[simp] theorem State.modInput_seqs (s : State) (l : InputLine) (f : LineState → LineState) :
    (s.modInput l f).seqs = s.seqs := rfl

@[simp] theorem State.modInput_transit (s : State) (l : InputLine) (f : LineState → LineState) :
    (s.modInput l f).transit = s.transit := rfl

@[simp] theorem State.modInput_roster (s : State) (l : InputLine) (f : LineState → LineState) :
    (s.modInput l f).roster = s.roster := rfl

@[simp] theorem State.modInput_score (s : State) (l : InputLine) (f : LineState → LineState) :
    (s.modInput l f).score = s.score := rfl

@[simp] theorem State.modInput_account (s : State) (l : InputLine) (f : LineState → LineState) :
    (s.modInput l f).account = s.account := rfl

@[simp] theorem State.modInput_time (s : State) (l : InputLine) (f : LineState → LineState) :
    (s.modInput l f).time = s.time := rfl

@[simp] theorem State.modInput_freeChoices (s : State) (l : InputLine) (f : LineState → LineState) :
    (s.modInput l f).freeChoices = s.freeChoices := rfl

@[simp] theorem State.modInput_nextBall (s : State) (l : InputLine) (f : LineState → LineState) :
    (s.modInput l f).nextBall = s.nextBall := rfl

@[simp] theorem State.modRoster_pending (s : State) (f : Roster → Roster) :
    (s.modRoster f).pending = s.pending := rfl

@[simp] theorem State.modRoster_loop (s : State) (f : Roster → Roster) :
    (s.modRoster f).loop = s.loop := rfl

@[simp] theorem State.modRoster_command (s : State) (f : Roster → Roster) :
    (s.modRoster f).command = s.command := rfl

@[simp] theorem State.modRoster_link (s : State) (f : Roster → Roster) :
    (s.modRoster f).link = s.link := rfl

@[simp] theorem State.modRoster_line (s : State) (f : Roster → Roster) :
    (s.modRoster f).line = s.line := rfl

@[simp] theorem State.modRoster_seqs (s : State) (f : Roster → Roster) :
    (s.modRoster f).seqs = s.seqs := rfl

@[simp] theorem State.modRoster_transit (s : State) (f : Roster → Roster) :
    (s.modRoster f).transit = s.transit := rfl

@[simp] theorem State.modRoster_score (s : State) (f : Roster → Roster) :
    (s.modRoster f).score = s.score := rfl

@[simp] theorem State.modRoster_account (s : State) (f : Roster → Roster) :
    (s.modRoster f).account = s.account := rfl

@[simp] theorem State.modRoster_time (s : State) (f : Roster → Roster) :
    (s.modRoster f).time = s.time := rfl

@[simp] theorem State.modRoster_freeChoices (s : State) (f : Roster → Roster) :
    (s.modRoster f).freeChoices = s.freeChoices := rfl

@[simp] theorem State.modRoster_nextBall (s : State) (f : Roster → Roster) :
    (s.modRoster f).nextBall = s.nextBall := rfl

@[simp] theorem State.modEntry_pending (s : State) (k : Slot) (f : RosterEntry → RosterEntry) :
    (s.modEntry k f).pending = s.pending := rfl

@[simp] theorem State.modEntry_loop (s : State) (k : Slot) (f : RosterEntry → RosterEntry) :
    (s.modEntry k f).loop = s.loop := rfl

@[simp] theorem State.modEntry_command (s : State) (k : Slot) (f : RosterEntry → RosterEntry) :
    (s.modEntry k f).command = s.command := rfl

@[simp] theorem State.modEntry_link (s : State) (k : Slot) (f : RosterEntry → RosterEntry) :
    (s.modEntry k f).link = s.link := rfl

@[simp] theorem State.modEntry_line (s : State) (k : Slot) (f : RosterEntry → RosterEntry) :
    (s.modEntry k f).line = s.line := rfl

@[simp] theorem State.modEntry_seqs (s : State) (k : Slot) (f : RosterEntry → RosterEntry) :
    (s.modEntry k f).seqs = s.seqs := rfl

@[simp] theorem State.modEntry_transit (s : State) (k : Slot) (f : RosterEntry → RosterEntry) :
    (s.modEntry k f).transit = s.transit := rfl

@[simp] theorem State.modEntry_score (s : State) (k : Slot) (f : RosterEntry → RosterEntry) :
    (s.modEntry k f).score = s.score := rfl

@[simp] theorem State.modEntry_account (s : State) (k : Slot) (f : RosterEntry → RosterEntry) :
    (s.modEntry k f).account = s.account := rfl

@[simp] theorem State.modEntry_time (s : State) (k : Slot) (f : RosterEntry → RosterEntry) :
    (s.modEntry k f).time = s.time := rfl

@[simp] theorem State.modEntry_freeChoices (s : State) (k : Slot) (f : RosterEntry → RosterEntry) :
    (s.modEntry k f).freeChoices = s.freeChoices := rfl

@[simp] theorem State.modEntry_nextBall (s : State) (k : Slot) (f : RosterEntry → RosterEntry) :
    (s.modEntry k f).nextBall = s.nextBall := rfl

@[simp] theorem State.setBowler_pending (s : State) (k : Slot) (b : Option Bowler) :
    (s.setBowler k b).pending = s.pending := rfl

@[simp] theorem State.setBowler_loop (s : State) (k : Slot) (b : Option Bowler) :
    (s.setBowler k b).loop = s.loop := rfl

@[simp] theorem State.setBowler_command (s : State) (k : Slot) (b : Option Bowler) :
    (s.setBowler k b).command = s.command := rfl

@[simp] theorem State.setBowler_link (s : State) (k : Slot) (b : Option Bowler) :
    (s.setBowler k b).link = s.link := rfl

@[simp] theorem State.setBowler_line (s : State) (k : Slot) (b : Option Bowler) :
    (s.setBowler k b).line = s.line := rfl

@[simp] theorem State.setBowler_seqs (s : State) (k : Slot) (b : Option Bowler) :
    (s.setBowler k b).seqs = s.seqs := rfl

@[simp] theorem State.setBowler_transit (s : State) (k : Slot) (b : Option Bowler) :
    (s.setBowler k b).transit = s.transit := rfl

@[simp] theorem State.setBowler_roster (s : State) (k : Slot) (b : Option Bowler) :
    (s.setBowler k b).roster = s.roster := rfl

@[simp] theorem State.setBowler_account (s : State) (k : Slot) (b : Option Bowler) :
    (s.setBowler k b).account = s.account := rfl

@[simp] theorem State.setBowler_time (s : State) (k : Slot) (b : Option Bowler) :
    (s.setBowler k b).time = s.time := rfl

@[simp] theorem State.setBowler_freeChoices (s : State) (k : Slot) (b : Option Bowler) :
    (s.setBowler k b).freeChoices = s.freeChoices := rfl

@[simp] theorem State.setBowler_nextBall (s : State) (k : Slot) (b : Option Bowler) :
    (s.setBowler k b).nextBall = s.nextBall := rfl

/-! ### What an update makes of its own part -/

@[simp] theorem State.modSeq_seq (s : State) (x : Lane) (f : Sequencer → Sequencer) :
    (s.modSeq x f).seq x = f (s.seq x) := LanePair.get_set_same _ _ _

theorem State.modSeq_seq_ne (s : State) (x y : Lane) (f : Sequencer → Sequencer) (h : y ≠ x) :
    (s.modSeq x f).seq y = s.seq y := LanePair.get_set_ne _ _ _ _ h

@[simp] theorem State.modTransit_transit (s : State) (f : Transit → Transit) :
    (s.modTransit f).transit = f s.transit := rfl

@[simp] theorem State.modLane_laneTransit (s : State) (x : Lane) (f : LaneTransit → LaneTransit) :
    (s.modLane x f).laneTransit x = f (s.laneTransit x) := LanePair.get_set_same _ _ _

theorem State.modLane_laneTransit_ne (s : State) (x y : Lane) (f : LaneTransit → LaneTransit)
    (h : y ≠ x) : (s.modLane x f).laneTransit y = s.laneTransit y := LanePair.get_set_ne _ _ _ _ h

@[simp] theorem State.modAcct_acct (s : State) (x : Lane) (f : Account → Account) :
    (s.modAcct x f).acct x = f (s.acct x) := LanePair.get_set_same _ _ _

theorem State.modAcct_acct_ne (s : State) (x y : Lane) (f : Account → Account) (h : y ≠ x) :
    (s.modAcct x f).acct y = s.acct y := LanePair.get_set_ne _ _ _ _ h

@[simp] theorem State.modLink_link (s : State) (f : PitLink → PitLink) :
    (s.modLink f).link = f s.link := rfl

@[simp] theorem State.modStation_station (s : State) (p : Position) (f : Station → Station) :
    (s.modStation p f).station p = f (s.station p) := Stations.get_set_same _ _ _

theorem State.modStation_station_ne (s : State) (p q : Position) (f : Station → Station)
    (h : q ≠ p) : (s.modStation p f).station q = s.station q := Stations.get_set_ne _ _ _ _ h

@[simp] theorem State.modLoop_loop (s : State) (f : LoopPort → LoopPort) :
    (s.modLoop f).loop = f s.loop := rfl

@[simp] theorem State.modLineUnit_line (s : State) (f : LineUnit → LineUnit) :
    (s.modLineUnit f).line = f s.line := rfl

@[simp] theorem State.modRoster_roster (s : State) (f : Roster → Roster) :
    (s.modRoster f).roster = f s.roster := rfl

end Sys2Proof.Machine
end

