-- ==== Sys2Proof/Laws/Frames.lean ====
section
/-! SUPPORT. The frames of the shared operations: for each one, the blocks that it leaves as they
are. Where an operation offers notices, the rest of the Loop Port is what it leaves. -/

namespace Sys2Proof.Machine

/-- What each of two lanes' events leaves, both leave in either order. -/
theorem eitherOrder_leaves {β : Type} (g : State → β) (f : Lane → State → State)
    (h : ∀ x s, g (f x s) = g s) (hc : ∀ (s : State) n, g { s with freeChoices := n } = g s)
    (s : State) : g (eitherOrder f s) = g s := by
  unfold eitherOrder
  split <;> rw [h, h, hc]

/-- What one step of a repetition leaves, the repetition leaves. -/
theorem times_leaves {β : Type} (g : State → β) (f : State → State) (h : ∀ s, g (f s) = g s)
    (n : Nat) (s : State) : g (times f n s) = g s := by
  induction n generalizing s with
  | zero => rfl
  | succ n ih => rw [times, ih, h]

/-- What every step of a fold leaves, the fold leaves. -/
theorem foldl_leaves {α β : Type} (g : State → β) (f : State → α → State)
    (h : ∀ s a, g (f s a) = g s) (l : List α) (s : State) : g (l.foldl f s) = g s := by
  induction l generalizing s with
  | nil => rfl
  | cons a l ih => rw [List.foldl_cons, ih, h]

/-! ### Machine/Ops.lean -/

@[simp] theorem offer_frame (n : NoticeBody) (s : State) :
    (offer n s).pending = s.pending ∧
      (offer n s).command = s.command ∧
      (offer n s).link = s.link ∧
      (offer n s).line = s.line ∧
      (offer n s).seqs = s.seqs ∧
      (offer n s).transit = s.transit ∧
      (offer n s).roster = s.roster ∧
      (offer n s).score = s.score ∧
      (offer n s).account = s.account ∧
      (offer n s).time = s.time ∧
      (offer n s).freeChoices = s.freeChoices ∧
      (offer n s).nextBall = s.nextBall ∧
      (offer n s).loop.pairNumber = s.loop.pairNumber ∧
      (offer n s).loop.up = s.loop.up ∧
      (offer n s).loop.timer = s.loop.timer ∧
      (offer n s).loop.downTime = s.loop.downTime ∧
      (offer n s).loop.groups = s.loop.groups ∧
      (offer n s).loop.replies = s.loop.replies ∧
      (offer n s).loop.counters = s.loop.counters ∧
      (offer n s).loop.out = s.loop.out := by
  unfold offer
  (repeat' split) <;> simp

@[simp] theorem count_frame (f : LoopCounters → LoopCounters) (s : State) :
    (count f s).pending = s.pending ∧
      (count f s).command = s.command ∧
      (count f s).link = s.link ∧
      (count f s).line = s.line ∧
      (count f s).seqs = s.seqs ∧
      (count f s).transit = s.transit ∧
      (count f s).roster = s.roster ∧
      (count f s).score = s.score ∧
      (count f s).account = s.account ∧
      (count f s).time = s.time ∧
      (count f s).freeChoices = s.freeChoices ∧
      (count f s).nextBall = s.nextBall ∧
      (count f s).loop.pairNumber = s.loop.pairNumber ∧
      (count f s).loop.up = s.loop.up ∧
      (count f s).loop.timer = s.loop.timer ∧
      (count f s).loop.downTime = s.loop.downTime ∧
      (count f s).loop.groups = s.loop.groups ∧
      (count f s).loop.replies = s.loop.replies ∧
      (count f s).loop.out = s.loop.out ∧
      (count f s).loop.notices = s.loop.notices ∧
      (count f s).loop.noticesLost = s.loop.noticesLost := by
  unfold count
  simp

@[simp] theorem addReply_frame (c q : Byte) (st : Status) (b : List Byte) (s : State) :
    (addReply c q st b s).pending = s.pending ∧
      (addReply c q st b s).command = s.command ∧
      (addReply c q st b s).link = s.link ∧
      (addReply c q st b s).line = s.line ∧
      (addReply c q st b s).seqs = s.seqs ∧
      (addReply c q st b s).transit = s.transit ∧
      (addReply c q st b s).roster = s.roster ∧
      (addReply c q st b s).score = s.score ∧
      (addReply c q st b s).account = s.account ∧
      (addReply c q st b s).time = s.time ∧
      (addReply c q st b s).freeChoices = s.freeChoices ∧
      (addReply c q st b s).nextBall = s.nextBall ∧
      (addReply c q st b s).loop.pairNumber = s.loop.pairNumber ∧
      (addReply c q st b s).loop.up = s.loop.up ∧
      (addReply c q st b s).loop.timer = s.loop.timer ∧
      (addReply c q st b s).loop.downTime = s.loop.downTime ∧
      (addReply c q st b s).loop.groups = s.loop.groups ∧
      (addReply c q st b s).loop.counters = s.loop.counters ∧
      (addReply c q st b s).loop.out = s.loop.out ∧
      (addReply c q st b s).loop.notices = s.loop.notices ∧
      (addReply c q st b s).loop.noticesLost = s.loop.noticesLost := by
  unfold addReply
  simp

@[simp] theorem setSlot_frame (d : Option Deferred) (s : State) :
    (setSlot d s).pending = s.pending ∧
      (setSlot d s).loop = s.loop ∧
      (setSlot d s).link = s.link ∧
      (setSlot d s).line = s.line ∧
      (setSlot d s).seqs = s.seqs ∧
      (setSlot d s).transit = s.transit ∧
      (setSlot d s).roster = s.roster ∧
      (setSlot d s).score = s.score ∧
      (setSlot d s).account = s.account ∧
      (setSlot d s).time = s.time ∧
      (setSlot d s).freeChoices = s.freeChoices ∧
      (setSlot d s).nextBall = s.nextBall := by
  unfold setSlot
  simp

@[simp] theorem answer_frame (g : Bool) (c q : Byte) (st : Status) (b : List Byte) (s : State) :
    (answer g c q st b s).pending = s.pending ∧
      (answer g c q st b s).command = s.command ∧
      (answer g c q st b s).link = s.link ∧
      (answer g c q st b s).line = s.line ∧
      (answer g c q st b s).seqs = s.seqs ∧
      (answer g c q st b s).transit = s.transit ∧
      (answer g c q st b s).roster = s.roster ∧
      (answer g c q st b s).score = s.score ∧
      (answer g c q st b s).account = s.account ∧
      (answer g c q st b s).time = s.time ∧
      (answer g c q st b s).freeChoices = s.freeChoices ∧
      (answer g c q st b s).nextBall = s.nextBall ∧
      (answer g c q st b s).loop.pairNumber = s.loop.pairNumber ∧
      (answer g c q st b s).loop.up = s.loop.up ∧
      (answer g c q st b s).loop.timer = s.loop.timer ∧
      (answer g c q st b s).loop.downTime = s.loop.downTime ∧
      (answer g c q st b s).loop.groups = s.loop.groups ∧
      (answer g c q st b s).loop.counters = s.loop.counters ∧
      (answer g c q st b s).loop.out = s.loop.out := by
  unfold answer
  (repeat' split) <;> simp

@[simp] theorem completeDeferred_frame (st : Status) (b : List Byte) (s : State) :
    (completeDeferred st b s).pending = s.pending ∧
      (completeDeferred st b s).link = s.link ∧
      (completeDeferred st b s).line = s.line ∧
      (completeDeferred st b s).seqs = s.seqs ∧
      (completeDeferred st b s).transit = s.transit ∧
      (completeDeferred st b s).roster = s.roster ∧
      (completeDeferred st b s).score = s.score ∧
      (completeDeferred st b s).account = s.account ∧
      (completeDeferred st b s).time = s.time ∧
      (completeDeferred st b s).freeChoices = s.freeChoices ∧
      (completeDeferred st b s).nextBall = s.nextBall ∧
      (completeDeferred st b s).loop.pairNumber = s.loop.pairNumber ∧
      (completeDeferred st b s).loop.up = s.loop.up ∧
      (completeDeferred st b s).loop.timer = s.loop.timer ∧
      (completeDeferred st b s).loop.downTime = s.loop.downTime ∧
      (completeDeferred st b s).loop.groups = s.loop.groups ∧
      (completeDeferred st b s).loop.counters = s.loop.counters ∧
      (completeDeferred st b s).loop.out = s.loop.out := by
  unfold completeDeferred
  (repeat' split) <;> simp

/-! ### Machine/Consoles.lean -/

@[simp] theorem emptySlot_frame (p : Position) (s : State) :
    (emptySlot p s).pending = s.pending ∧
      (emptySlot p s).loop = s.loop ∧
      (emptySlot p s).command = s.command ∧
      (emptySlot p s).line = s.line ∧
      (emptySlot p s).seqs = s.seqs ∧
      (emptySlot p s).transit = s.transit ∧
      (emptySlot p s).roster = s.roster ∧
      (emptySlot p s).score = s.score ∧
      (emptySlot p s).account = s.account ∧
      (emptySlot p s).time = s.time ∧
      (emptySlot p s).freeChoices = s.freeChoices ∧
      (emptySlot p s).nextBall = s.nextBall := by
  unfold emptySlot
  simp

@[simp] theorem writeBanner_frame (x : Lane) (s : State) :
    (writeBanner x s).pending = s.pending ∧
      (writeBanner x s).loop = s.loop ∧
      (writeBanner x s).command = s.command ∧
      (writeBanner x s).line = s.line ∧
      (writeBanner x s).seqs = s.seqs ∧
      (writeBanner x s).transit = s.transit ∧
      (writeBanner x s).roster = s.roster ∧
      (writeBanner x s).score = s.score ∧
      (writeBanner x s).account = s.account ∧
      (writeBanner x s).time = s.time ∧
      (writeBanner x s).freeChoices = s.freeChoices ∧
      (writeBanner x s).nextBall = s.nextBall := by
  unfold writeBanner
  simp

@[simp] theorem enterState_frame (x : Lane) (st : SeqState) (s : State) :
    (enterState x st s).pending = s.pending ∧
      (enterState x st s).loop = s.loop ∧
      (enterState x st s).command = s.command ∧
      (enterState x st s).line = s.line ∧
      (enterState x st s).transit = s.transit ∧
      (enterState x st s).roster = s.roster ∧
      (enterState x st s).score = s.score ∧
      (enterState x st s).account = s.account ∧
      (enterState x st s).time = s.time ∧
      (enterState x st s).freeChoices = s.freeChoices ∧
      (enterState x st s).nextBall = s.nextBall := by
  unfold enterState
  simp

@[simp] theorem setAccountState_frame (x : Lane) (st : AccountState) (s : State) :
    (setAccountState x st s).pending = s.pending ∧
      (setAccountState x st s).loop = s.loop ∧
      (setAccountState x st s).command = s.command ∧
      (setAccountState x st s).line = s.line ∧
      (setAccountState x st s).seqs = s.seqs ∧
      (setAccountState x st s).transit = s.transit ∧
      (setAccountState x st s).roster = s.roster ∧
      (setAccountState x st s).score = s.score ∧
      (setAccountState x st s).time = s.time ∧
      (setAccountState x st s).freeChoices = s.freeChoices ∧
      (setAccountState x st s).nextBall = s.nextBall := by
  unfold setAccountState
  simp

@[simp] theorem markConsole_frame (x : Lane) (i : List Item) (s : State) :
    (markConsole x i s).pending = s.pending ∧
      (markConsole x i s).loop = s.loop ∧
      (markConsole x i s).command = s.command ∧
      (markConsole x i s).line = s.line ∧
      (markConsole x i s).seqs = s.seqs ∧
      (markConsole x i s).transit = s.transit ∧
      (markConsole x i s).roster = s.roster ∧
      (markConsole x i s).score = s.score ∧
      (markConsole x i s).account = s.account ∧
      (markConsole x i s).time = s.time ∧
      (markConsole x i s).freeChoices = s.freeChoices ∧
      (markConsole x i s).nextBall = s.nextBall := by
  unfold markConsole
  simp

@[simp] theorem markBoth_frame (i : List Item) (s : State) :
    (markBoth i s).pending = s.pending ∧
      (markBoth i s).loop = s.loop ∧
      (markBoth i s).command = s.command ∧
      (markBoth i s).line = s.line ∧
      (markBoth i s).seqs = s.seqs ∧
      (markBoth i s).transit = s.transit ∧
      (markBoth i s).roster = s.roster ∧
      (markBoth i s).score = s.score ∧
      (markBoth i s).account = s.account ∧
      (markBoth i s).time = s.time ∧
      (markBoth i s).freeChoices = s.freeChoices ∧
      (markBoth i s).nextBall = s.nextBall := by
  unfold markBoth
  simp

/-- What a posting that is taken makes of the state (R42). -/
theorem postOrder_eq_some {p : Position} {o : Order} {s t : State} (h : postOrder p o s = some t) :
    (s.station p).state = .ready ∧ (s.station p).slot = none ∧
      t = s.modStation p fun r => { r with slot := some ⟨o, r.nextTag, false⟩, nextTag := !r.nextTag } := by
  unfold postOrder at h
  split at h
  · rename_i c; exact ⟨c.1, c.2, (Option.some.inj h).symm⟩
  · cases h

@[simp] theorem serviceConsole_frame (x : Lane) (s : State) :
    (serviceConsole x s).pending = s.pending ∧
      (serviceConsole x s).loop = s.loop ∧
      (serviceConsole x s).command = s.command ∧
      (serviceConsole x s).line = s.line ∧
      (serviceConsole x s).seqs = s.seqs ∧
      (serviceConsole x s).transit = s.transit ∧
      (serviceConsole x s).roster = s.roster ∧
      (serviceConsole x s).score = s.score ∧
      (serviceConsole x s).account = s.account ∧
      (serviceConsole x s).time = s.time ∧
      (serviceConsole x s).freeChoices = s.freeChoices ∧
      (serviceConsole x s).nextBall = s.nextBall := by
  unfold serviceConsole
  split
  · rename_i a _
    cases h : postOrder (.con x) (.answer a.tag a.kind a.status) s with
    | none => simp
    | some t => simp [(postOrder_eq_some h).2.2]
  · split
    · simp
    · split
      · rename_i h; simp [(postOrder_eq_some h).2.2]
      · simp

@[simp] theorem abandonSlot_frame (p : Position) (s : State) :
    (abandonSlot p s).pending = s.pending ∧
      (abandonSlot p s).loop = s.loop ∧
      (abandonSlot p s).command = s.command ∧
      (abandonSlot p s).line = s.line ∧
      (abandonSlot p s).seqs = s.seqs ∧
      (abandonSlot p s).transit = s.transit ∧
      (abandonSlot p s).roster = s.roster ∧
      (abandonSlot p s).score = s.score ∧
      (abandonSlot p s).account = s.account ∧
      (abandonSlot p s).time = s.time ∧
      (abandonSlot p s).freeChoices = s.freeChoices ∧
      (abandonSlot p s).nextBall = s.nextBall := by
  unfold abandonSlot
  simp
  (repeat' split) <;> simp

/-! ### Machine/Places.lean -/

@[simp] theorem startPitTimer_frame (x : Lane) (s : State) :
    (startPitTimer x s).pending = s.pending ∧
      (startPitTimer x s).loop = s.loop ∧
      (startPitTimer x s).command = s.command ∧
      (startPitTimer x s).link = s.link ∧
      (startPitTimer x s).line = s.line ∧
      (startPitTimer x s).seqs = s.seqs ∧
      (startPitTimer x s).roster = s.roster ∧
      (startPitTimer x s).score = s.score ∧
      (startPitTimer x s).account = s.account ∧
      (startPitTimer x s).time = s.time ∧
      (startPitTimer x s).freeChoices = s.freeChoices ∧
      (startPitTimer x s).nextBall = s.nextBall := by
  unfold startPitTimer
  simp

@[simp] theorem liftPosted_frame (x : Lane) (s : State) :
    (liftPosted x s).pending = s.pending ∧
      (liftPosted x s).loop = s.loop ∧
      (liftPosted x s).command = s.command ∧
      (liftPosted x s).link = s.link ∧
      (liftPosted x s).line = s.line ∧
      (liftPosted x s).seqs = s.seqs ∧
      (liftPosted x s).roster = s.roster ∧
      (liftPosted x s).score = s.score ∧
      (liftPosted x s).account = s.account ∧
      (liftPosted x s).time = s.time ∧
      (liftPosted x s).freeChoices = s.freeChoices ∧
      (liftPosted x s).nextBall = s.nextBall := by
  unfold liftPosted
  simp
  (repeat' split) <;> simp

@[simp] theorem offerOrder_frame (x : Lane) (s : State) :
    (offerOrder x s).pending = s.pending ∧
      (offerOrder x s).loop = s.loop ∧
      (offerOrder x s).command = s.command ∧
      (offerOrder x s).line = s.line ∧
      (offerOrder x s).roster = s.roster ∧
      (offerOrder x s).score = s.score ∧
      (offerOrder x s).account = s.account ∧
      (offerOrder x s).time = s.time ∧
      (offerOrder x s).freeChoices = s.freeChoices ∧
      (offerOrder x s).nextBall = s.nextBall := by
  unfold offerOrder
  split
  · split
    · rename_i h; rw [(postOrder_eq_some h).2.2]; split <;> simp
    · simp
  · simp

@[simp] theorem issueOrder_frame (x : Lane) (o : PinOrder) (s : State) :
    (issueOrder x o s).pending = s.pending ∧
      (issueOrder x o s).loop = s.loop ∧
      (issueOrder x o s).command = s.command ∧
      (issueOrder x o s).line = s.line ∧
      (issueOrder x o s).roster = s.roster ∧
      (issueOrder x o s).score = s.score ∧
      (issueOrder x o s).account = s.account ∧
      (issueOrder x o s).time = s.time ∧
      (issueOrder x o s).freeChoices = s.freeChoices ∧
      (issueOrder x o s).nextBall = s.nextBall := by
  unfold issueOrder
  simp

@[simp] theorem grant_frame (w : Waiter) (r : List Waiter) (s : State) :
    (grant w r s).pending = s.pending ∧
      (grant w r s).loop = s.loop ∧
      (grant w r s).command = s.command ∧
      (grant w r s).line = s.line ∧
      (grant w r s).roster = s.roster ∧
      (grant w r s).score = s.score ∧
      (grant w r s).account = s.account ∧
      (grant w r s).time = s.time ∧
      (grant w r s).freeChoices = s.freeChoices ∧
      (grant w r s).nextBall = s.nextBall := by
  unfold grant
  simp
  (repeat' split) <;> simp

@[simp] theorem grantLoop_frame (n : Nat) (s : State) :
    (grantLoop n s).pending = s.pending ∧
      (grantLoop n s).loop = s.loop ∧
      (grantLoop n s).command = s.command ∧
      (grantLoop n s).line = s.line ∧
      (grantLoop n s).roster = s.roster ∧
      (grantLoop n s).score = s.score ∧
      (grantLoop n s).account = s.account ∧
      (grantLoop n s).time = s.time ∧
      (grantLoop n s).freeChoices = s.freeChoices ∧
      (grantLoop n s).nextBall = s.nextBall := by
  induction n generalizing s with
  | zero => simp [grantLoop]
  | succ n ih => simp only [grantLoop]; (repeat' split) <;> simp [ih]

@[simp] theorem grantTest_frame (s : State) :
    (grantTest s).pending = s.pending ∧
      (grantTest s).loop = s.loop ∧
      (grantTest s).command = s.command ∧
      (grantTest s).line = s.line ∧
      (grantTest s).roster = s.roster ∧
      (grantTest s).score = s.score ∧
      (grantTest s).account = s.account ∧
      (grantTest s).time = s.time ∧
      (grantTest s).freeChoices = s.freeChoices ∧
      (grantTest s).nextBall = s.nextBall := by
  unfold grantTest
  simp

@[simp] theorem requestPlaces_frame (x : Lane) (o : PinOrder) (s : State) :
    (requestPlaces x o s).pending = s.pending ∧
      (requestPlaces x o s).loop = s.loop ∧
      (requestPlaces x o s).command = s.command ∧
      (requestPlaces x o s).line = s.line ∧
      (requestPlaces x o s).roster = s.roster ∧
      (requestPlaces x o s).score = s.score ∧
      (requestPlaces x o s).account = s.account ∧
      (requestPlaces x o s).time = s.time ∧
      (requestPlaces x o s).freeChoices = s.freeChoices ∧
      (requestPlaces x o s).nextBall = s.nextBall := by
  unfold requestPlaces
  simp

@[simp] theorem startCycle_frame (x : Lane) (o : PinOrder) (s : State) :
    (startCycle x o s).pending = s.pending ∧
      (startCycle x o s).loop = s.loop ∧
      (startCycle x o s).command = s.command ∧
      (startCycle x o s).line = s.line ∧
      (startCycle x o s).roster = s.roster ∧
      (startCycle x o s).score = s.score ∧
      (startCycle x o s).account = s.account ∧
      (startCycle x o s).time = s.time ∧
      (startCycle x o s).freeChoices = s.freeChoices ∧
      (startCycle x o s).nextBall = s.nextBall := by
  unfold startCycle
  simp

@[simp] theorem withdrawPlace_frame (x : Lane) (s : State) :
    (withdrawPlace x s).pending = s.pending ∧
      (withdrawPlace x s).loop = s.loop ∧
      (withdrawPlace x s).command = s.command ∧
      (withdrawPlace x s).line = s.line ∧
      (withdrawPlace x s).roster = s.roster ∧
      (withdrawPlace x s).score = s.score ∧
      (withdrawPlace x s).account = s.account ∧
      (withdrawPlace x s).time = s.time ∧
      (withdrawPlace x s).freeChoices = s.freeChoices ∧
      (withdrawPlace x s).nextBall = s.nextBall := by
  unfold withdrawPlace
  (repeat' split) <;> simp

@[simp] theorem endOrder_frame (x : Lane) (s : State) :
    (endOrder x s).pending = s.pending ∧
      (endOrder x s).loop = s.loop ∧
      (endOrder x s).command = s.command ∧
      (endOrder x s).line = s.line ∧
      (endOrder x s).roster = s.roster ∧
      (endOrder x s).score = s.score ∧
      (endOrder x s).account = s.account ∧
      (endOrder x s).time = s.time ∧
      (endOrder x s).freeChoices = s.freeChoices ∧
      (endOrder x s).nextBall = s.nextBall := by
  unfold endOrder
  (repeat' split) <;> simp

@[simp] theorem withdrawOrder_frame (x : Lane) (s : State) :
    (withdrawOrder x s).pending = s.pending ∧
      (withdrawOrder x s).loop = s.loop ∧
      (withdrawOrder x s).command = s.command ∧
      (withdrawOrder x s).line = s.line ∧
      (withdrawOrder x s).roster = s.roster ∧
      (withdrawOrder x s).score = s.score ∧
      (withdrawOrder x s).account = s.account ∧
      (withdrawOrder x s).time = s.time ∧
      (withdrawOrder x s).freeChoices = s.freeChoices ∧
      (withdrawOrder x s).nextBall = s.nextBall := by
  unfold withdrawOrder
  (repeat' split) <;> simp

@[simp] theorem enterHeld_frame (x : Lane) (s : State) :
    (enterHeld x s).pending = s.pending ∧
      (enterHeld x s).loop = s.loop ∧
      (enterHeld x s).command = s.command ∧
      (enterHeld x s).line = s.line ∧
      (enterHeld x s).roster = s.roster ∧
      (enterHeld x s).score = s.score ∧
      (enterHeld x s).account = s.account ∧
      (enterHeld x s).time = s.time ∧
      (enterHeld x s).freeChoices = s.freeChoices ∧
      (enterHeld x s).nextBall = s.nextBall := by
  unfold enterHeld
  simp
  (repeat' split) <;> simp

@[simp] theorem ballJoined_frame (x : Lane) (s : State) :
    (ballJoined x s).pending = s.pending ∧
      (ballJoined x s).loop = s.loop ∧
      (ballJoined x s).command = s.command ∧
      (ballJoined x s).line = s.line ∧
      (ballJoined x s).roster = s.roster ∧
      (ballJoined x s).score = s.score ∧
      (ballJoined x s).account = s.account ∧
      (ballJoined x s).time = s.time ∧
      (ballJoined x s).freeChoices = s.freeChoices ∧
      (ballJoined x s).nextBall = s.nextBall := by
  unfold ballJoined
  (repeat' split) <;> simp

@[simp] theorem startParking_frame (x : Lane) (s : State) :
    (startParking x s).pending = s.pending ∧
      (startParking x s).loop = s.loop ∧
      (startParking x s).command = s.command ∧
      (startParking x s).line = s.line ∧
      (startParking x s).roster = s.roster ∧
      (startParking x s).score = s.score ∧
      (startParking x s).account = s.account ∧
      (startParking x s).time = s.time ∧
      (startParking x s).freeChoices = s.freeChoices ∧
      (startParking x s).nextBall = s.nextBall := by
  unfold startParking
  simp

@[simp] theorem restPoint_frame (x : Lane) (s : State) :
    (restPoint x s).pending = s.pending ∧
      (restPoint x s).loop = s.loop ∧
      (restPoint x s).command = s.command ∧
      (restPoint x s).line = s.line ∧
      (restPoint x s).roster = s.roster ∧
      (restPoint x s).score = s.score ∧
      (restPoint x s).account = s.account ∧
      (restPoint x s).time = s.time ∧
      (restPoint x s).freeChoices = s.freeChoices ∧
      (restPoint x s).nextBall = s.nextBall := by
  unfold restPoint
  (repeat' split) <;> simp

@[simp] theorem addHold_frame (x : Lane) (r : HoldReason) (s : State) :
    (addHold x r s).pending = s.pending ∧
      (addHold x r s).loop = s.loop ∧
      (addHold x r s).command = s.command ∧
      (addHold x r s).line = s.line ∧
      (addHold x r s).roster = s.roster ∧
      (addHold x r s).score = s.score ∧
      (addHold x r s).account = s.account ∧
      (addHold x r s).time = s.time ∧
      (addHold x r s).freeChoices = s.freeChoices ∧
      (addHold x r s).nextBall = s.nextBall := by
  unfold addHold
  (repeat' split) <;> simp
  all_goals (repeat' split) <;> simp

@[simp] theorem removeHold_frame (x : Lane) (r : HoldReason) (s : State) :
    (removeHold x r s).pending = s.pending ∧
      (removeHold x r s).loop = s.loop ∧
      (removeHold x r s).command = s.command ∧
      (removeHold x r s).line = s.line ∧
      (removeHold x r s).roster = s.roster ∧
      (removeHold x r s).score = s.score ∧
      (removeHold x r s).account = s.account ∧
      (removeHold x r s).time = s.time ∧
      (removeHold x r s).freeChoices = s.freeChoices ∧
      (removeHold x r s).nextBall = s.nextBall := by
  unfold removeHold
  (repeat' split) <;> simp
  all_goals (repeat' split) <;> simp

@[simp] theorem setHold_frame (x : Lane) (r : HoldReason) (v : Bool) (s : State) :
    (setHold x r v s).pending = s.pending ∧
      (setHold x r v s).loop = s.loop ∧
      (setHold x r v s).command = s.command ∧
      (setHold x r v s).line = s.line ∧
      (setHold x r v s).roster = s.roster ∧
      (setHold x r v s).score = s.score ∧
      (setHold x r v s).account = s.account ∧
      (setHold x r v s).time = s.time ∧
      (setHold x r v s).freeChoices = s.freeChoices ∧
      (setHold x r v s).nextBall = s.nextBall := by
  unfold setHold
  (repeat' split) <;> simp

/-! ### Machine/Billing.lean -/

@[simp] theorem lock_frame (x : Lane) (c : LockCause) (s : State) :
    (lock x c s).pending = s.pending ∧
      (lock x c s).command = s.command ∧
      (lock x c s).line = s.line ∧
      (lock x c s).roster = s.roster ∧
      (lock x c s).score = s.score ∧
      (lock x c s).time = s.time ∧
      (lock x c s).freeChoices = s.freeChoices ∧
      (lock x c s).nextBall = s.nextBall ∧
      (lock x c s).loop.pairNumber = s.loop.pairNumber ∧
      (lock x c s).loop.up = s.loop.up ∧
      (lock x c s).loop.timer = s.loop.timer ∧
      (lock x c s).loop.downTime = s.loop.downTime ∧
      (lock x c s).loop.groups = s.loop.groups ∧
      (lock x c s).loop.replies = s.loop.replies ∧
      (lock x c s).loop.counters = s.loop.counters ∧
      (lock x c s).loop.out = s.loop.out := by
  unfold lock
  simp

@[simp] theorem unlock_frame (x : Lane) (c : UnlockCause) (s : State) :
    (unlock x c s).pending = s.pending ∧
      (unlock x c s).command = s.command ∧
      (unlock x c s).line = s.line ∧
      (unlock x c s).roster = s.roster ∧
      (unlock x c s).score = s.score ∧
      (unlock x c s).time = s.time ∧
      (unlock x c s).freeChoices = s.freeChoices ∧
      (unlock x c s).nextBall = s.nextBall ∧
      (unlock x c s).loop.pairNumber = s.loop.pairNumber ∧
      (unlock x c s).loop.up = s.loop.up ∧
      (unlock x c s).loop.timer = s.loop.timer ∧
      (unlock x c s).loop.downTime = s.loop.downTime ∧
      (unlock x c s).loop.groups = s.loop.groups ∧
      (unlock x c s).loop.replies = s.loop.replies ∧
      (unlock x c s).loop.counters = s.loop.counters ∧
      (unlock x c s).loop.out = s.loop.out := by
  unfold unlock
  simp

@[simp] theorem warnTest_frame (x : Lane) (s : State) :
    (warnTest x s).pending = s.pending ∧
      (warnTest x s).command = s.command ∧
      (warnTest x s).link = s.link ∧
      (warnTest x s).line = s.line ∧
      (warnTest x s).seqs = s.seqs ∧
      (warnTest x s).transit = s.transit ∧
      (warnTest x s).roster = s.roster ∧
      (warnTest x s).score = s.score ∧
      (warnTest x s).time = s.time ∧
      (warnTest x s).freeChoices = s.freeChoices ∧
      (warnTest x s).nextBall = s.nextBall ∧
      (warnTest x s).loop.pairNumber = s.loop.pairNumber ∧
      (warnTest x s).loop.up = s.loop.up ∧
      (warnTest x s).loop.timer = s.loop.timer ∧
      (warnTest x s).loop.downTime = s.loop.downTime ∧
      (warnTest x s).loop.groups = s.loop.groups ∧
      (warnTest x s).loop.replies = s.loop.replies ∧
      (warnTest x s).loop.counters = s.loop.counters ∧
      (warnTest x s).loop.out = s.loop.out := by
  unfold warnTest
  (repeat' split) <;> simp
  all_goals (repeat' split) <;> simp

@[simp] theorem chargeMinute_frame (x : Lane) (s : State) :
    (chargeMinute x s).pending = s.pending ∧
      (chargeMinute x s).command = s.command ∧
      (chargeMinute x s).line = s.line ∧
      (chargeMinute x s).roster = s.roster ∧
      (chargeMinute x s).score = s.score ∧
      (chargeMinute x s).time = s.time ∧
      (chargeMinute x s).freeChoices = s.freeChoices ∧
      (chargeMinute x s).nextBall = s.nextBall ∧
      (chargeMinute x s).loop.pairNumber = s.loop.pairNumber ∧
      (chargeMinute x s).loop.up = s.loop.up ∧
      (chargeMinute x s).loop.timer = s.loop.timer ∧
      (chargeMinute x s).loop.downTime = s.loop.downTime ∧
      (chargeMinute x s).loop.groups = s.loop.groups ∧
      (chargeMinute x s).loop.replies = s.loop.replies ∧
      (chargeMinute x s).loop.counters = s.loop.counters ∧
      (chargeMinute x s).loop.out = s.loop.out := by
  unfold chargeMinute
  simp
  (repeat' split) <;> simp

@[simp] theorem reportCharge_frame (k : Slot) (c : ChargeKind) (s : State) :
    (reportCharge k c s).pending = s.pending ∧
      (reportCharge k c s).loop = s.loop ∧
      (reportCharge k c s).command = s.command ∧
      (reportCharge k c s).link = s.link ∧
      (reportCharge k c s).line = s.line ∧
      (reportCharge k c s).seqs = s.seqs ∧
      (reportCharge k c s).transit = s.transit ∧
      (reportCharge k c s).score = s.score ∧
      (reportCharge k c s).account = s.account ∧
      (reportCharge k c s).time = s.time ∧
      (reportCharge k c s).freeChoices = s.freeChoices ∧
      (reportCharge k c s).nextBall = s.nextBall := by
  unfold reportCharge
  (repeat' split) <;> simp

@[simp] theorem makeCharge_frame (x : Lane) (k : Slot) (c : ChargeKind) (s : State) :
    (makeCharge x k c s).pending = s.pending ∧
      (makeCharge x k c s).command = s.command ∧
      (makeCharge x k c s).link = s.link ∧
      (makeCharge x k c s).line = s.line ∧
      (makeCharge x k c s).seqs = s.seqs ∧
      (makeCharge x k c s).transit = s.transit ∧
      (makeCharge x k c s).score = s.score ∧
      (makeCharge x k c s).time = s.time ∧
      (makeCharge x k c s).freeChoices = s.freeChoices ∧
      (makeCharge x k c s).nextBall = s.nextBall ∧
      (makeCharge x k c s).loop.pairNumber = s.loop.pairNumber ∧
      (makeCharge x k c s).loop.up = s.loop.up ∧
      (makeCharge x k c s).loop.timer = s.loop.timer ∧
      (makeCharge x k c s).loop.downTime = s.loop.downTime ∧
      (makeCharge x k c s).loop.groups = s.loop.groups ∧
      (makeCharge x k c s).loop.replies = s.loop.replies ∧
      (makeCharge x k c s).loop.counters = s.loop.counters ∧
      (makeCharge x k c s).loop.out = s.loop.out := by
  unfold makeCharge
  (repeat' split) <;> simp

@[simp] theorem chargePoint_frame (x : Lane) (k : Slot) (c : ChargeKind) (s : State) :
    (chargePoint x k c s).pending = s.pending ∧
      (chargePoint x k c s).command = s.command ∧
      (chargePoint x k c s).line = s.line ∧
      (chargePoint x k c s).score = s.score ∧
      (chargePoint x k c s).time = s.time ∧
      (chargePoint x k c s).freeChoices = s.freeChoices ∧
      (chargePoint x k c s).nextBall = s.nextBall ∧
      (chargePoint x k c s).loop.pairNumber = s.loop.pairNumber ∧
      (chargePoint x k c s).loop.up = s.loop.up ∧
      (chargePoint x k c s).loop.timer = s.loop.timer ∧
      (chargePoint x k c s).loop.downTime = s.loop.downTime ∧
      (chargePoint x k c s).loop.groups = s.loop.groups ∧
      (chargePoint x k c s).loop.replies = s.loop.replies ∧
      (chargePoint x k c s).loop.counters = s.loop.counters ∧
      (chargePoint x k c s).loop.out = s.loop.out := by
  unfold chargePoint
  (repeat' split) <;> simp

@[simp] theorem retryPending_frame (x : Lane) (c : UnlockCause) (s : State) :
    (retryPending x c s).pending = s.pending ∧
      (retryPending x c s).command = s.command ∧
      (retryPending x c s).line = s.line ∧
      (retryPending x c s).score = s.score ∧
      (retryPending x c s).time = s.time ∧
      (retryPending x c s).freeChoices = s.freeChoices ∧
      (retryPending x c s).nextBall = s.nextBall ∧
      (retryPending x c s).loop.pairNumber = s.loop.pairNumber ∧
      (retryPending x c s).loop.up = s.loop.up ∧
      (retryPending x c s).loop.timer = s.loop.timer ∧
      (retryPending x c s).loop.downTime = s.loop.downTime ∧
      (retryPending x c s).loop.groups = s.loop.groups ∧
      (retryPending x c s).loop.replies = s.loop.replies ∧
      (retryPending x c s).loop.counters = s.loop.counters ∧
      (retryPending x c s).loop.out = s.loop.out := by
  unfold retryPending
  (repeat' split) <;> simp

@[simp] theorem leftUp_frame (x : Lane) (k : Slot) (s : State) :
    (leftUp x k s).pending = s.pending ∧
      (leftUp x k s).command = s.command ∧
      (leftUp x k s).line = s.line ∧
      (leftUp x k s).roster = s.roster ∧
      (leftUp x k s).score = s.score ∧
      (leftUp x k s).time = s.time ∧
      (leftUp x k s).freeChoices = s.freeChoices ∧
      (leftUp x k s).nextBall = s.nextBall ∧
      (leftUp x k s).loop.pairNumber = s.loop.pairNumber ∧
      (leftUp x k s).loop.up = s.loop.up ∧
      (leftUp x k s).loop.timer = s.loop.timer ∧
      (leftUp x k s).loop.downTime = s.loop.downTime ∧
      (leftUp x k s).loop.groups = s.loop.groups ∧
      (leftUp x k s).loop.replies = s.loop.replies ∧
      (leftUp x k s).loop.counters = s.loop.counters ∧
      (leftUp x k s).loop.out = s.loop.out := by
  unfold leftUp
  (repeat' split) <;> simp
  all_goals (repeat' split) <;> simp

/-! ### Machine/Play.lean -/

@[simp] theorem discardGame_frame (k : Slot) (s : State) :
    (discardGame k s).pending = s.pending ∧
      (discardGame k s).loop = s.loop ∧
      (discardGame k s).command = s.command ∧
      (discardGame k s).line = s.line ∧
      (discardGame k s).seqs = s.seqs ∧
      (discardGame k s).transit = s.transit ∧
      (discardGame k s).roster = s.roster ∧
      (discardGame k s).account = s.account ∧
      (discardGame k s).time = s.time ∧
      (discardGame k s).freeChoices = s.freeChoices ∧
      (discardGame k s).nextBall = s.nextBall := by
  unfold discardGame
  (repeat' split) <;> simp

@[simp] theorem setQueue_frame (x : Lane) (l : List Slot) (s : State) :
    (setQueue x l s).pending = s.pending ∧
      (setQueue x l s).loop = s.loop ∧
      (setQueue x l s).command = s.command ∧
      (setQueue x l s).link = s.link ∧
      (setQueue x l s).line = s.line ∧
      (setQueue x l s).seqs = s.seqs ∧
      (setQueue x l s).transit = s.transit ∧
      (setQueue x l s).score = s.score ∧
      (setQueue x l s).account = s.account ∧
      (setQueue x l s).time = s.time ∧
      (setQueue x l s).freeChoices = s.freeChoices ∧
      (setQueue x l s).nextBall = s.nextBall := by
  unfold setQueue
  simp

@[simp] theorem setStatus_frame (k : Slot) (st : BowlerStatus) (s : State) :
    (setStatus k st s).pending = s.pending ∧
      (setStatus k st s).loop = s.loop ∧
      (setStatus k st s).command = s.command ∧
      (setStatus k st s).link = s.link ∧
      (setStatus k st s).line = s.line ∧
      (setStatus k st s).seqs = s.seqs ∧
      (setStatus k st s).transit = s.transit ∧
      (setStatus k st s).score = s.score ∧
      (setStatus k st s).account = s.account ∧
      (setStatus k st s).time = s.time ∧
      (setStatus k st s).freeChoices = s.freeChoices ∧
      (setStatus k st s).nextBall = s.nextBall := by
  unfold setStatus
  simp

@[simp] theorem examineCharge_frame (x : Lane) (k : Slot) (s : State) :
    (examineCharge x k s).pending = s.pending ∧
      (examineCharge x k s).command = s.command ∧
      (examineCharge x k s).line = s.line ∧
      (examineCharge x k s).score = s.score ∧
      (examineCharge x k s).time = s.time ∧
      (examineCharge x k s).freeChoices = s.freeChoices ∧
      (examineCharge x k s).nextBall = s.nextBall ∧
      (examineCharge x k s).loop.pairNumber = s.loop.pairNumber ∧
      (examineCharge x k s).loop.up = s.loop.up ∧
      (examineCharge x k s).loop.timer = s.loop.timer ∧
      (examineCharge x k s).loop.downTime = s.loop.downTime ∧
      (examineCharge x k s).loop.groups = s.loop.groups ∧
      (examineCharge x k s).loop.replies = s.loop.replies ∧
      (examineCharge x k s).loop.counters = s.loop.counters ∧
      (examineCharge x k s).loop.out = s.loop.out := by
  unfold examineCharge
  (repeat' split) <;> simp

@[simp] theorem headBecomesUp_frame (x : Lane) (s : State) :
    (headBecomesUp x s).pending = s.pending ∧
      (headBecomesUp x s).command = s.command ∧
      (headBecomesUp x s).line = s.line ∧
      (headBecomesUp x s).score = s.score ∧
      (headBecomesUp x s).time = s.time ∧
      (headBecomesUp x s).freeChoices = s.freeChoices ∧
      (headBecomesUp x s).nextBall = s.nextBall ∧
      (headBecomesUp x s).loop.pairNumber = s.loop.pairNumber ∧
      (headBecomesUp x s).loop.up = s.loop.up ∧
      (headBecomesUp x s).loop.timer = s.loop.timer ∧
      (headBecomesUp x s).loop.downTime = s.loop.downTime ∧
      (headBecomesUp x s).loop.groups = s.loop.groups ∧
      (headBecomesUp x s).loop.replies = s.loop.replies ∧
      (headBecomesUp x s).loop.counters = s.loop.counters ∧
      (headBecomesUp x s).loop.out = s.loop.out := by
  unfold headBecomesUp
  (repeat' split) <;> simp

@[simp] theorem syncHolds_frame (x : Lane) (s : State) :
    (syncHolds x s).pending = s.pending ∧
      (syncHolds x s).loop = s.loop ∧
      (syncHolds x s).command = s.command ∧
      (syncHolds x s).line = s.line ∧
      (syncHolds x s).roster = s.roster ∧
      (syncHolds x s).score = s.score ∧
      (syncHolds x s).account = s.account ∧
      (syncHolds x s).time = s.time ∧
      (syncHolds x s).freeChoices = s.freeChoices ∧
      (syncHolds x s).nextBall = s.nextBall := by
  unfold syncHolds
  (repeat' split) <;> simp

@[simp] theorem syncBoth_frame (s : State) :
    (syncBoth s).pending = s.pending ∧
      (syncBoth s).loop = s.loop ∧
      (syncBoth s).command = s.command ∧
      (syncBoth s).line = s.line ∧
      (syncBoth s).roster = s.roster ∧
      (syncBoth s).score = s.score ∧
      (syncBoth s).account = s.account ∧
      (syncBoth s).time = s.time ∧
      (syncBoth s).freeChoices = s.freeChoices ∧
      (syncBoth s).nextBall = s.nextBall := by
  unfold syncBoth
  simp

@[simp] theorem foldl_crossTo_frame (x : Lane) (l : List Slot) (s : State) :
    (l.foldl (crossTo x) s).pending = s.pending ∧
      (l.foldl (crossTo x) s).loop = s.loop ∧
      (l.foldl (crossTo x) s).command = s.command ∧
      (l.foldl (crossTo x) s).link = s.link ∧
      (l.foldl (crossTo x) s).line = s.line ∧
      (l.foldl (crossTo x) s).seqs = s.seqs ∧
      (l.foldl (crossTo x) s).transit = s.transit ∧
      (l.foldl (crossTo x) s).score = s.score ∧
      (l.foldl (crossTo x) s).account = s.account ∧
      (l.foldl (crossTo x) s).time = s.time ∧
      (l.foldl (crossTo x) s).freeChoices = s.freeChoices ∧
      (l.foldl (crossTo x) s).nextBall = s.nextBall :=
  ⟨foldl_leaves State.pending _ (by intro s a; simp [crossTo]) l s,
    foldl_leaves State.loop _ (by intro s a; simp [crossTo]) l s,
    foldl_leaves State.command _ (by intro s a; simp [crossTo]) l s,
    foldl_leaves State.link _ (by intro s a; simp [crossTo]) l s,
    foldl_leaves State.line _ (by intro s a; simp [crossTo]) l s,
    foldl_leaves State.seqs _ (by intro s a; simp [crossTo]) l s,
    foldl_leaves State.transit _ (by intro s a; simp [crossTo]) l s,
    foldl_leaves State.score _ (by intro s a; simp [crossTo]) l s,
    foldl_leaves State.account _ (by intro s a; simp [crossTo]) l s,
    foldl_leaves State.time _ (by intro s a; simp [crossTo]) l s,
    foldl_leaves State.freeChoices _ (by intro s a; simp [crossTo]) l s,
    foldl_leaves State.nextBall _ (by intro s a; simp [crossTo]) l s⟩

@[simp] theorem swapTeams_frame (s : State) :
    (swapTeams s).pending = s.pending ∧
      (swapTeams s).command = s.command ∧
      (swapTeams s).line = s.line ∧
      (swapTeams s).score = s.score ∧
      (swapTeams s).time = s.time ∧
      (swapTeams s).freeChoices = s.freeChoices ∧
      (swapTeams s).nextBall = s.nextBall ∧
      (swapTeams s).loop.pairNumber = s.loop.pairNumber ∧
      (swapTeams s).loop.up = s.loop.up ∧
      (swapTeams s).loop.timer = s.loop.timer ∧
      (swapTeams s).loop.downTime = s.loop.downTime ∧
      (swapTeams s).loop.groups = s.loop.groups ∧
      (swapTeams s).loop.replies = s.loop.replies ∧
      (swapTeams s).loop.counters = s.loop.counters ∧
      (swapTeams s).loop.out = s.loop.out := by
  unfold swapTeams
  simp

@[simp] theorem syncHandover_frame (x : Lane) (s : State) :
    (syncHandover x s).pending = s.pending ∧
      (syncHandover x s).loop = s.loop ∧
      (syncHandover x s).command = s.command ∧
      (syncHandover x s).line = s.line ∧
      (syncHandover x s).roster = s.roster ∧
      (syncHandover x s).score = s.score ∧
      (syncHandover x s).account = s.account ∧
      (syncHandover x s).time = s.time ∧
      (syncHandover x s).freeChoices = s.freeChoices ∧
      (syncHandover x s).nextBall = s.nextBall := by
  unfold syncHandover
  simp

@[simp] theorem settleRoster_frame (s : State) :
    (settleRoster s).pending = s.pending ∧
      (settleRoster s).command = s.command ∧
      (settleRoster s).line = s.line ∧
      (settleRoster s).score = s.score ∧
      (settleRoster s).time = s.time ∧
      (settleRoster s).freeChoices = s.freeChoices ∧
      (settleRoster s).nextBall = s.nextBall ∧
      (settleRoster s).loop.pairNumber = s.loop.pairNumber ∧
      (settleRoster s).loop.up = s.loop.up ∧
      (settleRoster s).loop.timer = s.loop.timer ∧
      (settleRoster s).loop.downTime = s.loop.downTime ∧
      (settleRoster s).loop.groups = s.loop.groups ∧
      (settleRoster s).loop.replies = s.loop.replies ∧
      (settleRoster s).loop.counters = s.loop.counters ∧
      (settleRoster s).loop.out = s.loop.out := by
  unfold settleRoster
  simp
  (repeat' split) <;> simp

@[simp] theorem removeSlot_frame (k : Slot) (s : State) :
    (removeSlot k s).pending = s.pending ∧
      (removeSlot k s).loop = s.loop ∧
      (removeSlot k s).command = s.command ∧
      (removeSlot k s).link = s.link ∧
      (removeSlot k s).line = s.line ∧
      (removeSlot k s).seqs = s.seqs ∧
      (removeSlot k s).transit = s.transit ∧
      (removeSlot k s).score = s.score ∧
      (removeSlot k s).account = s.account ∧
      (removeSlot k s).time = s.time ∧
      (removeSlot k s).freeChoices = s.freeChoices ∧
      (removeSlot k s).nextBall = s.nextBall := by
  unfold removeSlot
  simp

@[simp] theorem withdrawNow_frame (k : Slot) (e : RosterEntry) (s : State) :
    (withdrawNow k e s).pending = s.pending ∧
      (withdrawNow k e s).command = s.command ∧
      (withdrawNow k e s).line = s.line ∧
      (withdrawNow k e s).time = s.time ∧
      (withdrawNow k e s).freeChoices = s.freeChoices ∧
      (withdrawNow k e s).nextBall = s.nextBall ∧
      (withdrawNow k e s).loop.pairNumber = s.loop.pairNumber ∧
      (withdrawNow k e s).loop.up = s.loop.up ∧
      (withdrawNow k e s).loop.timer = s.loop.timer ∧
      (withdrawNow k e s).loop.downTime = s.loop.downTime ∧
      (withdrawNow k e s).loop.groups = s.loop.groups ∧
      (withdrawNow k e s).loop.replies = s.loop.replies ∧
      (withdrawNow k e s).loop.counters = s.loop.counters ∧
      (withdrawNow k e s).loop.out = s.loop.out := by
  unfold withdrawNow
  (repeat' split) <;> simp

@[simp] theorem checkPendingWithdraw_frame (x : Lane) (s : State) :
    (checkPendingWithdraw x s).pending = s.pending ∧
      (checkPendingWithdraw x s).command = s.command ∧
      (checkPendingWithdraw x s).line = s.line ∧
      (checkPendingWithdraw x s).time = s.time ∧
      (checkPendingWithdraw x s).freeChoices = s.freeChoices ∧
      (checkPendingWithdraw x s).nextBall = s.nextBall ∧
      (checkPendingWithdraw x s).loop.pairNumber = s.loop.pairNumber ∧
      (checkPendingWithdraw x s).loop.up = s.loop.up ∧
      (checkPendingWithdraw x s).loop.timer = s.loop.timer ∧
      (checkPendingWithdraw x s).loop.downTime = s.loop.downTime ∧
      (checkPendingWithdraw x s).loop.groups = s.loop.groups ∧
      (checkPendingWithdraw x s).loop.replies = s.loop.replies ∧
      (checkPendingWithdraw x s).loop.counters = s.loop.counters ∧
      (checkPendingWithdraw x s).loop.out = s.loop.out := by
  unfold checkPendingWithdraw
  (repeat' split) <;> simp

@[simp] theorem gameEnds_frame (k : Slot) (s : State) :
    (gameEnds k s).pending = s.pending ∧
      (gameEnds k s).loop = s.loop ∧
      (gameEnds k s).command = s.command ∧
      (gameEnds k s).link = s.link ∧
      (gameEnds k s).line = s.line ∧
      (gameEnds k s).seqs = s.seqs ∧
      (gameEnds k s).transit = s.transit ∧
      (gameEnds k s).score = s.score ∧
      (gameEnds k s).account = s.account ∧
      (gameEnds k s).time = s.time ∧
      (gameEnds k s).freeChoices = s.freeChoices ∧
      (gameEnds k s).nextBall = s.nextBall := by
  unfold gameEnds
  simp

@[simp] theorem frameEnds_frame (x : Lane) (k : Slot) (g : Bool) (s : State) :
    (frameEnds x k g s).pending = s.pending ∧
      (frameEnds x k g s).command = s.command ∧
      (frameEnds x k g s).line = s.line ∧
      (frameEnds x k g s).time = s.time ∧
      (frameEnds x k g s).freeChoices = s.freeChoices ∧
      (frameEnds x k g s).nextBall = s.nextBall ∧
      (frameEnds x k g s).loop.pairNumber = s.loop.pairNumber ∧
      (frameEnds x k g s).loop.up = s.loop.up ∧
      (frameEnds x k g s).loop.timer = s.loop.timer ∧
      (frameEnds x k g s).loop.downTime = s.loop.downTime ∧
      (frameEnds x k g s).loop.groups = s.loop.groups ∧
      (frameEnds x k g s).loop.replies = s.loop.replies ∧
      (frameEnds x k g s).loop.counters = s.loop.counters ∧
      (frameEnds x k g s).loop.out = s.loop.out := by
  unfold frameEnds
  (repeat' split) <;> simp
  all_goals (repeat' split) <;> simp

@[simp] theorem rosterOpening_frame (x : Lane) (p : Bool) (s : State) :
    (rosterOpening x p s).pending = s.pending ∧
      (rosterOpening x p s).command = s.command ∧
      (rosterOpening x p s).line = s.line ∧
      (rosterOpening x p s).score = s.score ∧
      (rosterOpening x p s).time = s.time ∧
      (rosterOpening x p s).freeChoices = s.freeChoices ∧
      (rosterOpening x p s).nextBall = s.nextBall ∧
      (rosterOpening x p s).loop.pairNumber = s.loop.pairNumber ∧
      (rosterOpening x p s).loop.up = s.loop.up ∧
      (rosterOpening x p s).loop.timer = s.loop.timer ∧
      (rosterOpening x p s).loop.downTime = s.loop.downTime ∧
      (rosterOpening x p s).loop.groups = s.loop.groups ∧
      (rosterOpening x p s).loop.replies = s.loop.replies ∧
      (rosterOpening x p s).loop.counters = s.loop.counters ∧
      (rosterOpening x p s).loop.out = s.loop.out := by
  unfold rosterOpening
  simp
  (repeat' split) <;> simp

@[simp] theorem foldl_abandonGame_frame (l : List Slot) (s : State) :
    (l.foldl (abandonGame) s).pending = s.pending ∧
      (l.foldl (abandonGame) s).loop = s.loop ∧
      (l.foldl (abandonGame) s).command = s.command ∧
      (l.foldl (abandonGame) s).line = s.line ∧
      (l.foldl (abandonGame) s).seqs = s.seqs ∧
      (l.foldl (abandonGame) s).transit = s.transit ∧
      (l.foldl (abandonGame) s).account = s.account ∧
      (l.foldl (abandonGame) s).time = s.time ∧
      (l.foldl (abandonGame) s).freeChoices = s.freeChoices ∧
      (l.foldl (abandonGame) s).nextBall = s.nextBall :=
  ⟨foldl_leaves State.pending _ (by intro s a; simp [abandonGame]) l s,
    foldl_leaves State.loop _ (by intro s a; simp [abandonGame]) l s,
    foldl_leaves State.command _ (by intro s a; simp [abandonGame]) l s,
    foldl_leaves State.line _ (by intro s a; simp [abandonGame]) l s,
    foldl_leaves State.seqs _ (by intro s a; simp [abandonGame]) l s,
    foldl_leaves State.transit _ (by intro s a; simp [abandonGame]) l s,
    foldl_leaves State.account _ (by intro s a; simp [abandonGame]) l s,
    foldl_leaves State.time _ (by intro s a; simp [abandonGame]) l s,
    foldl_leaves State.freeChoices _ (by intro s a; simp [abandonGame]) l s,
    foldl_leaves State.nextBall _ (by intro s a; simp [abandonGame]) l s⟩

@[simp] theorem abandonGames_frame (x : Lane) (s : State) :
    (abandonGames x s).pending = s.pending ∧
      (abandonGames x s).command = s.command ∧
      (abandonGames x s).line = s.line ∧
      (abandonGames x s).time = s.time ∧
      (abandonGames x s).freeChoices = s.freeChoices ∧
      (abandonGames x s).nextBall = s.nextBall ∧
      (abandonGames x s).loop.pairNumber = s.loop.pairNumber ∧
      (abandonGames x s).loop.up = s.loop.up ∧
      (abandonGames x s).loop.timer = s.loop.timer ∧
      (abandonGames x s).loop.downTime = s.loop.downTime ∧
      (abandonGames x s).loop.groups = s.loop.groups ∧
      (abandonGames x s).loop.replies = s.loop.replies ∧
      (abandonGames x s).loop.counters = s.loop.counters ∧
      (abandonGames x s).loop.out = s.loop.out := by
  unfold abandonGames
  simp

/-! ### Machine/Score.lean -/

@[simp] theorem endGame_frame (k : Slot) (g : Bowler) (s : State) :
    (endGame k g s).pending = s.pending ∧
      (endGame k g s).command = s.command ∧
      (endGame k g s).line = s.line ∧
      (endGame k g s).seqs = s.seqs ∧
      (endGame k g s).transit = s.transit ∧
      (endGame k g s).roster = s.roster ∧
      (endGame k g s).account = s.account ∧
      (endGame k g s).time = s.time ∧
      (endGame k g s).freeChoices = s.freeChoices ∧
      (endGame k g s).nextBall = s.nextBall ∧
      (endGame k g s).loop.pairNumber = s.loop.pairNumber ∧
      (endGame k g s).loop.up = s.loop.up ∧
      (endGame k g s).loop.timer = s.loop.timer ∧
      (endGame k g s).loop.downTime = s.loop.downTime ∧
      (endGame k g s).loop.groups = s.loop.groups ∧
      (endGame k g s).loop.replies = s.loop.replies ∧
      (endGame k g s).loop.counters = s.loop.counters ∧
      (endGame k g s).loop.out = s.loop.out := by
  unfold endGame
  simp

@[simp] theorem ballResult_frame (r : BallResult) (s : State) :
    (ballResult r s).1.pending = s.pending ∧
      (ballResult r s).1.command = s.command ∧
      (ballResult r s).1.line = s.line ∧
      (ballResult r s).1.time = s.time ∧
      (ballResult r s).1.freeChoices = s.freeChoices ∧
      (ballResult r s).1.nextBall = s.nextBall ∧
      (ballResult r s).1.loop.pairNumber = s.loop.pairNumber ∧
      (ballResult r s).1.loop.up = s.loop.up ∧
      (ballResult r s).1.loop.timer = s.loop.timer ∧
      (ballResult r s).1.loop.downTime = s.loop.downTime ∧
      (ballResult r s).1.loop.groups = s.loop.groups ∧
      (ballResult r s).1.loop.replies = s.loop.replies ∧
      (ballResult r s).1.loop.counters = s.loop.counters ∧
      (ballResult r s).1.loop.out = s.loop.out := by
  unfold ballResult
  (repeat' split) <;> simp
  all_goals (repeat' split) <;> simp

@[simp] theorem applyCorrection_frame (a : CorrectionSource) (c : Correction) (g : Bowler) (f : List FrameRecord) (o : Nat) (s : State) :
    (applyCorrection a c g f o s).pending = s.pending ∧
      (applyCorrection a c g f o s).command = s.command ∧
      (applyCorrection a c g f o s).line = s.line ∧
      (applyCorrection a c g f o s).seqs = s.seqs ∧
      (applyCorrection a c g f o s).transit = s.transit ∧
      (applyCorrection a c g f o s).roster = s.roster ∧
      (applyCorrection a c g f o s).account = s.account ∧
      (applyCorrection a c g f o s).time = s.time ∧
      (applyCorrection a c g f o s).freeChoices = s.freeChoices ∧
      (applyCorrection a c g f o s).nextBall = s.nextBall ∧
      (applyCorrection a c g f o s).loop.pairNumber = s.loop.pairNumber ∧
      (applyCorrection a c g f o s).loop.up = s.loop.up ∧
      (applyCorrection a c g f o s).loop.timer = s.loop.timer ∧
      (applyCorrection a c g f o s).loop.downTime = s.loop.downTime ∧
      (applyCorrection a c g f o s).loop.groups = s.loop.groups ∧
      (applyCorrection a c g f o s).loop.replies = s.loop.replies ∧
      (applyCorrection a c g f o s).loop.counters = s.loop.counters ∧
      (applyCorrection a c g f o s).loop.out = s.loop.out := by
  unfold applyCorrection
  (repeat' split) <;> simp

@[simp] theorem correct_frame (a : CorrectionSource) (c : Correction) (s : State) :
    (correct a c s).1.pending = s.pending ∧
      (correct a c s).1.command = s.command ∧
      (correct a c s).1.line = s.line ∧
      (correct a c s).1.seqs = s.seqs ∧
      (correct a c s).1.transit = s.transit ∧
      (correct a c s).1.roster = s.roster ∧
      (correct a c s).1.account = s.account ∧
      (correct a c s).1.time = s.time ∧
      (correct a c s).1.freeChoices = s.freeChoices ∧
      (correct a c s).1.nextBall = s.nextBall ∧
      (correct a c s).1.loop.pairNumber = s.loop.pairNumber ∧
      (correct a c s).1.loop.up = s.loop.up ∧
      (correct a c s).1.loop.timer = s.loop.timer ∧
      (correct a c s).1.loop.downTime = s.loop.downTime ∧
      (correct a c s).1.loop.groups = s.loop.groups ∧
      (correct a c s).1.loop.replies = s.loop.replies ∧
      (correct a c s).1.loop.counters = s.loop.counters ∧
      (correct a c s).1.loop.out = s.loop.out := by
  unfold correct
  (repeat' split) <;> simp

/-! ### Machine/Sequencer.lean -/

@[simp] theorem dropScored_frame (x : Lane) (s : State) :
    (dropScored x s).pending = s.pending ∧
      (dropScored x s).command = s.command ∧
      (dropScored x s).line = s.line ∧
      (dropScored x s).time = s.time ∧
      (dropScored x s).freeChoices = s.freeChoices ∧
      (dropScored x s).nextBall = s.nextBall ∧
      (dropScored x s).loop.pairNumber = s.loop.pairNumber ∧
      (dropScored x s).loop.up = s.loop.up ∧
      (dropScored x s).loop.timer = s.loop.timer ∧
      (dropScored x s).loop.downTime = s.loop.downTime ∧
      (dropScored x s).loop.groups = s.loop.groups ∧
      (dropScored x s).loop.replies = s.loop.replies ∧
      (dropScored x s).loop.counters = s.loop.counters ∧
      (dropScored x s).loop.out = s.loop.out := by
  unfold dropScored
  simp

@[simp] theorem scoredLost_frame (x : Lane) (s : State) :
    (scoredLost x s).pending = s.pending ∧
      (scoredLost x s).command = s.command ∧
      (scoredLost x s).line = s.line ∧
      (scoredLost x s).time = s.time ∧
      (scoredLost x s).freeChoices = s.freeChoices ∧
      (scoredLost x s).nextBall = s.nextBall ∧
      (scoredLost x s).loop.pairNumber = s.loop.pairNumber ∧
      (scoredLost x s).loop.up = s.loop.up ∧
      (scoredLost x s).loop.timer = s.loop.timer ∧
      (scoredLost x s).loop.downTime = s.loop.downTime ∧
      (scoredLost x s).loop.groups = s.loop.groups ∧
      (scoredLost x s).loop.replies = s.loop.replies ∧
      (scoredLost x s).loop.counters = s.loop.counters ∧
      (scoredLost x s).loop.out = s.loop.out := by
  unfold scoredLost
  (repeat' split) <;> simp

@[simp] theorem enterSettle_frame (x : Lane) (s : State) :
    (enterSettle x s).pending = s.pending ∧
      (enterSettle x s).loop = s.loop ∧
      (enterSettle x s).command = s.command ∧
      (enterSettle x s).line = s.line ∧
      (enterSettle x s).transit = s.transit ∧
      (enterSettle x s).roster = s.roster ∧
      (enterSettle x s).score = s.score ∧
      (enterSettle x s).account = s.account ∧
      (enterSettle x s).time = s.time ∧
      (enterSettle x s).freeChoices = s.freeChoices ∧
      (enterSettle x s).nextBall = s.nextBall := by
  unfold enterSettle
  simp

@[simp] theorem scoredInPit_frame (x : Lane) (s : State) :
    (scoredInPit x s).pending = s.pending ∧
      (scoredInPit x s).loop = s.loop ∧
      (scoredInPit x s).command = s.command ∧
      (scoredInPit x s).line = s.line ∧
      (scoredInPit x s).transit = s.transit ∧
      (scoredInPit x s).roster = s.roster ∧
      (scoredInPit x s).score = s.score ∧
      (scoredInPit x s).account = s.account ∧
      (scoredInPit x s).time = s.time ∧
      (scoredInPit x s).freeChoices = s.freeChoices ∧
      (scoredInPit x s).nextBall = s.nextBall := by
  unfold scoredInPit
  (repeat' split) <;> simp

@[simp] theorem enterFault_frame (x : Lane) (c : FaultCode) (o : Option Byte) (s : State) :
    (enterFault x c o s).pending = s.pending ∧
      (enterFault x c o s).command = s.command ∧
      (enterFault x c o s).line = s.line ∧
      (enterFault x c o s).time = s.time ∧
      (enterFault x c o s).freeChoices = s.freeChoices ∧
      (enterFault x c o s).nextBall = s.nextBall ∧
      (enterFault x c o s).loop.pairNumber = s.loop.pairNumber ∧
      (enterFault x c o s).loop.up = s.loop.up ∧
      (enterFault x c o s).loop.timer = s.loop.timer ∧
      (enterFault x c o s).loop.downTime = s.loop.downTime ∧
      (enterFault x c o s).loop.groups = s.loop.groups ∧
      (enterFault x c o s).loop.replies = s.loop.replies ∧
      (enterFault x c o s).loop.counters = s.loop.counters ∧
      (enterFault x c o s).loop.out = s.loop.out := by
  unfold enterFault
  simp
  (repeat' split) <;> simp

@[simp] theorem enterParked_frame (x : Lane) (s : State) :
    (enterParked x s).pending = s.pending ∧
      (enterParked x s).loop = s.loop ∧
      (enterParked x s).command = s.command ∧
      (enterParked x s).line = s.line ∧
      (enterParked x s).transit = s.transit ∧
      (enterParked x s).roster = s.roster ∧
      (enterParked x s).score = s.score ∧
      (enterParked x s).account = s.account ∧
      (enterParked x s).time = s.time ∧
      (enterParked x s).freeChoices = s.freeChoices ∧
      (enterParked x s).nextBall = s.nextBall := by
  unfold enterParked
  simp

@[simp] theorem seqFault_frame (x : Lane) (c : FaultCode) (o : Option Byte) (s : State) :
    (seqFault x c o s).pending = s.pending ∧
      (seqFault x c o s).command = s.command ∧
      (seqFault x c o s).line = s.line ∧
      (seqFault x c o s).time = s.time ∧
      (seqFault x c o s).freeChoices = s.freeChoices ∧
      (seqFault x c o s).nextBall = s.nextBall ∧
      (seqFault x c o s).loop.pairNumber = s.loop.pairNumber ∧
      (seqFault x c o s).loop.up = s.loop.up ∧
      (seqFault x c o s).loop.timer = s.loop.timer ∧
      (seqFault x c o s).loop.downTime = s.loop.downTime ∧
      (seqFault x c o s).loop.groups = s.loop.groups ∧
      (seqFault x c o s).loop.replies = s.loop.replies ∧
      (seqFault x c o s).loop.counters = s.loop.counters ∧
      (seqFault x c o s).loop.out = s.loop.out := by
  unfold seqFault
  (repeat' split) <;> simp

@[simp] theorem issueResume_frame (x : Lane) (s : State) :
    (issueResume x s).pending = s.pending ∧
      (issueResume x s).loop = s.loop ∧
      (issueResume x s).command = s.command ∧
      (issueResume x s).line = s.line ∧
      (issueResume x s).roster = s.roster ∧
      (issueResume x s).score = s.score ∧
      (issueResume x s).account = s.account ∧
      (issueResume x s).time = s.time ∧
      (issueResume x s).freeChoices = s.freeChoices ∧
      (issueResume x s).nextBall = s.nextBall := by
  unfold issueResume
  simp
  (repeat' split) <;> simp

@[simp] theorem enterRecover_frame (x : Lane) (s : State) :
    (enterRecover x s).pending = s.pending ∧
      (enterRecover x s).command = s.command ∧
      (enterRecover x s).line = s.line ∧
      (enterRecover x s).time = s.time ∧
      (enterRecover x s).freeChoices = s.freeChoices ∧
      (enterRecover x s).nextBall = s.nextBall ∧
      (enterRecover x s).loop.pairNumber = s.loop.pairNumber ∧
      (enterRecover x s).loop.up = s.loop.up ∧
      (enterRecover x s).loop.timer = s.loop.timer ∧
      (enterRecover x s).loop.downTime = s.loop.downTime ∧
      (enterRecover x s).loop.groups = s.loop.groups ∧
      (enterRecover x s).loop.replies = s.loop.replies ∧
      (enterRecover x s).loop.counters = s.loop.counters ∧
      (enterRecover x s).loop.out = s.loop.out := by
  unfold enterRecover
  simp
  (repeat' split) <;> simp

@[simp] theorem startLane_frame (x : Lane) (s : State) :
    (startLane x s).pending = s.pending ∧
      (startLane x s).command = s.command ∧
      (startLane x s).line = s.line ∧
      (startLane x s).time = s.time ∧
      (startLane x s).freeChoices = s.freeChoices ∧
      (startLane x s).nextBall = s.nextBall ∧
      (startLane x s).loop.pairNumber = s.loop.pairNumber ∧
      (startLane x s).loop.up = s.loop.up ∧
      (startLane x s).loop.timer = s.loop.timer ∧
      (startLane x s).loop.downTime = s.loop.downTime ∧
      (startLane x s).loop.groups = s.loop.groups ∧
      (startLane x s).loop.replies = s.loop.replies ∧
      (startLane x s).loop.counters = s.loop.counters ∧
      (startLane x s).loop.out = s.loop.out := by
  unfold startLane
  simp
  (repeat' split) <;> simp

@[simp] theorem startIfReady_frame (x : Lane) (s : State) :
    (startIfReady x s).pending = s.pending ∧
      (startIfReady x s).command = s.command ∧
      (startIfReady x s).line = s.line ∧
      (startIfReady x s).time = s.time ∧
      (startIfReady x s).freeChoices = s.freeChoices ∧
      (startIfReady x s).nextBall = s.nextBall ∧
      (startIfReady x s).loop.pairNumber = s.loop.pairNumber ∧
      (startIfReady x s).loop.up = s.loop.up ∧
      (startIfReady x s).loop.timer = s.loop.timer ∧
      (startIfReady x s).loop.downTime = s.loop.downTime ∧
      (startIfReady x s).loop.groups = s.loop.groups ∧
      (startIfReady x s).loop.replies = s.loop.replies ∧
      (startIfReady x s).loop.counters = s.loop.counters ∧
      (startIfReady x s).loop.out = s.loop.out := by
  unfold startIfReady
  (repeat' split) <;> simp

@[simp] theorem seqOpening_frame (x : Lane) (p : Bool) (s : State) :
    (seqOpening x p s).pending = s.pending ∧
      (seqOpening x p s).command = s.command ∧
      (seqOpening x p s).line = s.line ∧
      (seqOpening x p s).time = s.time ∧
      (seqOpening x p s).freeChoices = s.freeChoices ∧
      (seqOpening x p s).nextBall = s.nextBall ∧
      (seqOpening x p s).loop.pairNumber = s.loop.pairNumber ∧
      (seqOpening x p s).loop.up = s.loop.up ∧
      (seqOpening x p s).loop.timer = s.loop.timer ∧
      (seqOpening x p s).loop.downTime = s.loop.downTime ∧
      (seqOpening x p s).loop.groups = s.loop.groups ∧
      (seqOpening x p s).loop.replies = s.loop.replies ∧
      (seqOpening x p s).loop.counters = s.loop.counters ∧
      (seqOpening x p s).loop.out = s.loop.out := by
  unfold seqOpening
  simp
  (repeat' split) <;> simp

@[simp] theorem seqPark_frame (x : Lane) (s : State) :
    (seqPark x s).pending = s.pending ∧
      (seqPark x s).command = s.command ∧
      (seqPark x s).line = s.line ∧
      (seqPark x s).time = s.time ∧
      (seqPark x s).freeChoices = s.freeChoices ∧
      (seqPark x s).nextBall = s.nextBall ∧
      (seqPark x s).loop.pairNumber = s.loop.pairNumber ∧
      (seqPark x s).loop.up = s.loop.up ∧
      (seqPark x s).loop.timer = s.loop.timer ∧
      (seqPark x s).loop.downTime = s.loop.downTime ∧
      (seqPark x s).loop.groups = s.loop.groups ∧
      (seqPark x s).loop.replies = s.loop.replies ∧
      (seqPark x s).loop.counters = s.loop.counters ∧
      (seqPark x s).loop.out = s.loop.out := by
  unfold seqPark
  simp
  (repeat' split) <;> simp

@[simp] theorem scoreBall_frame (x : Lane) (a : PinSet) (d : Bool) (s : State) :
    (scoreBall x a d s).pending = s.pending ∧
      (scoreBall x a d s).command = s.command ∧
      (scoreBall x a d s).line = s.line ∧
      (scoreBall x a d s).time = s.time ∧
      (scoreBall x a d s).freeChoices = s.freeChoices ∧
      (scoreBall x a d s).nextBall = s.nextBall ∧
      (scoreBall x a d s).loop.pairNumber = s.loop.pairNumber ∧
      (scoreBall x a d s).loop.up = s.loop.up ∧
      (scoreBall x a d s).loop.timer = s.loop.timer ∧
      (scoreBall x a d s).loop.downTime = s.loop.downTime ∧
      (scoreBall x a d s).loop.groups = s.loop.groups ∧
      (scoreBall x a d s).loop.replies = s.loop.replies ∧
      (scoreBall x a d s).loop.counters = s.loop.counters ∧
      (scoreBall x a d s).loop.out = s.loop.out := by
  unfold scoreBall
  cases (s.seq x).practice
  · cases h : (s.laneTransit x).copy.bind (·.slot) <;> simp [h]
  · simp

@[simp] theorem scanDone_frame (x : Lane) (a : PinSet) (s : State) :
    (scanDone x a s).pending = s.pending ∧
      (scanDone x a s).command = s.command ∧
      (scanDone x a s).line = s.line ∧
      (scanDone x a s).time = s.time ∧
      (scanDone x a s).freeChoices = s.freeChoices ∧
      (scanDone x a s).nextBall = s.nextBall ∧
      (scanDone x a s).loop.pairNumber = s.loop.pairNumber ∧
      (scanDone x a s).loop.up = s.loop.up ∧
      (scanDone x a s).loop.timer = s.loop.timer ∧
      (scanDone x a s).loop.downTime = s.loop.downTime ∧
      (scanDone x a s).loop.groups = s.loop.groups ∧
      (scanDone x a s).loop.replies = s.loop.replies ∧
      (scanDone x a s).loop.counters = s.loop.counters ∧
      (scanDone x a s).loop.out = s.loop.out := by
  unfold scanDone
  (repeat' split) <;> simp
  all_goals (repeat' split) <;> simp

@[simp] theorem setStanding_frame (x : Lane) (a : PinSet) (s : State) :
    (setStanding x a s).pending = s.pending ∧
      (setStanding x a s).loop = s.loop ∧
      (setStanding x a s).command = s.command ∧
      (setStanding x a s).link = s.link ∧
      (setStanding x a s).line = s.line ∧
      (setStanding x a s).transit = s.transit ∧
      (setStanding x a s).roster = s.roster ∧
      (setStanding x a s).score = s.score ∧
      (setStanding x a s).account = s.account ∧
      (setStanding x a s).time = s.time ∧
      (setStanding x a s).freeChoices = s.freeChoices ∧
      (setStanding x a s).nextBall = s.nextBall := by
  unfold setStanding
  simp

@[simp] theorem cycleDone_frame (x : Lane) (o : PinOrder) (a : PinSet) (s : State) :
    (cycleDone x o a s).pending = s.pending ∧
      (cycleDone x o a s).command = s.command ∧
      (cycleDone x o a s).line = s.line ∧
      (cycleDone x o a s).time = s.time ∧
      (cycleDone x o a s).freeChoices = s.freeChoices ∧
      (cycleDone x o a s).nextBall = s.nextBall ∧
      (cycleDone x o a s).loop.pairNumber = s.loop.pairNumber ∧
      (cycleDone x o a s).loop.up = s.loop.up ∧
      (cycleDone x o a s).loop.timer = s.loop.timer ∧
      (cycleDone x o a s).loop.downTime = s.loop.downTime ∧
      (cycleDone x o a s).loop.groups = s.loop.groups ∧
      (cycleDone x o a s).loop.replies = s.loop.replies ∧
      (cycleDone x o a s).loop.counters = s.loop.counters ∧
      (cycleDone x o a s).loop.out = s.loop.out := by
  unfold cycleDone
  (repeat' split) <;> simp

@[simp] theorem parkDone_frame (x : Lane) (s : State) :
    (parkDone x s).pending = s.pending ∧
      (parkDone x s).command = s.command ∧
      (parkDone x s).line = s.line ∧
      (parkDone x s).time = s.time ∧
      (parkDone x s).freeChoices = s.freeChoices ∧
      (parkDone x s).nextBall = s.nextBall ∧
      (parkDone x s).loop.pairNumber = s.loop.pairNumber ∧
      (parkDone x s).loop.up = s.loop.up ∧
      (parkDone x s).loop.timer = s.loop.timer ∧
      (parkDone x s).loop.downTime = s.loop.downTime ∧
      (parkDone x s).loop.groups = s.loop.groups ∧
      (parkDone x s).loop.replies = s.loop.replies ∧
      (parkDone x s).loop.counters = s.loop.counters ∧
      (parkDone x s).loop.out = s.loop.out := by
  unfold parkDone
  simp

@[simp] theorem recoverDone_frame (x : Lane) (o : PinOrder) (a : PinSet) (s : State) :
    (recoverDone x o a s).pending = s.pending ∧
      (recoverDone x o a s).command = s.command ∧
      (recoverDone x o a s).line = s.line ∧
      (recoverDone x o a s).time = s.time ∧
      (recoverDone x o a s).freeChoices = s.freeChoices ∧
      (recoverDone x o a s).nextBall = s.nextBall ∧
      (recoverDone x o a s).loop.pairNumber = s.loop.pairNumber ∧
      (recoverDone x o a s).loop.up = s.loop.up ∧
      (recoverDone x o a s).loop.timer = s.loop.timer ∧
      (recoverDone x o a s).loop.downTime = s.loop.downTime ∧
      (recoverDone x o a s).loop.groups = s.loop.groups ∧
      (recoverDone x o a s).loop.replies = s.loop.replies ∧
      (recoverDone x o a s).loop.counters = s.loop.counters ∧
      (recoverDone x o a s).loop.out = s.loop.out := by
  unfold recoverDone
  (repeat' split) <;> simp
  all_goals (repeat' split) <;> simp

@[simp] theorem seqDone_frame (x : Lane) (a : PinSet) (s : State) :
    (seqDone x a s).pending = s.pending ∧
      (seqDone x a s).command = s.command ∧
      (seqDone x a s).line = s.line ∧
      (seqDone x a s).time = s.time ∧
      (seqDone x a s).freeChoices = s.freeChoices ∧
      (seqDone x a s).nextBall = s.nextBall ∧
      (seqDone x a s).loop.pairNumber = s.loop.pairNumber ∧
      (seqDone x a s).loop.up = s.loop.up ∧
      (seqDone x a s).loop.timer = s.loop.timer ∧
      (seqDone x a s).loop.downTime = s.loop.downTime ∧
      (seqDone x a s).loop.groups = s.loop.groups ∧
      (seqDone x a s).loop.replies = s.loop.replies ∧
      (seqDone x a s).loop.counters = s.loop.counters ∧
      (seqDone x a s).loop.out = s.loop.out := by
  unfold seqDone
  (repeat' split) <;> simp
  all_goals (repeat' split) <;> simp

@[simp] theorem seqRefused_frame (x : Lane) (r : Byte) (s : State) :
    (seqRefused x r s).pending = s.pending ∧
      (seqRefused x r s).command = s.command ∧
      (seqRefused x r s).line = s.line ∧
      (seqRefused x r s).time = s.time ∧
      (seqRefused x r s).freeChoices = s.freeChoices ∧
      (seqRefused x r s).nextBall = s.nextBall ∧
      (seqRefused x r s).loop.pairNumber = s.loop.pairNumber ∧
      (seqRefused x r s).loop.up = s.loop.up ∧
      (seqRefused x r s).loop.timer = s.loop.timer ∧
      (seqRefused x r s).loop.downTime = s.loop.downTime ∧
      (seqRefused x r s).loop.groups = s.loop.groups ∧
      (seqRefused x r s).loop.replies = s.loop.replies ∧
      (seqRefused x r s).loop.counters = s.loop.counters ∧
      (seqRefused x r s).loop.out = s.loop.out := by
  unfold seqRefused
  (repeat' split) <;> simp

@[simp] theorem seqCondition_frame (x : Lane) (c : Byte) (s : State) :
    (seqCondition x c s).pending = s.pending ∧
      (seqCondition x c s).command = s.command ∧
      (seqCondition x c s).line = s.line ∧
      (seqCondition x c s).time = s.time ∧
      (seqCondition x c s).freeChoices = s.freeChoices ∧
      (seqCondition x c s).nextBall = s.nextBall ∧
      (seqCondition x c s).loop.pairNumber = s.loop.pairNumber ∧
      (seqCondition x c s).loop.up = s.loop.up ∧
      (seqCondition x c s).loop.timer = s.loop.timer ∧
      (seqCondition x c s).loop.downTime = s.loop.downTime ∧
      (seqCondition x c s).loop.groups = s.loop.groups ∧
      (seqCondition x c s).loop.replies = s.loop.replies ∧
      (seqCondition x c s).loop.counters = s.loop.counters ∧
      (seqCondition x c s).loop.out = s.loop.out := by
  unfold seqCondition
  (repeat' split) <;> simp

@[simp] theorem seqPositionReady_frame (x : Lane) (s : State) :
    (seqPositionReady x s).pending = s.pending ∧
      (seqPositionReady x s).command = s.command ∧
      (seqPositionReady x s).line = s.line ∧
      (seqPositionReady x s).time = s.time ∧
      (seqPositionReady x s).freeChoices = s.freeChoices ∧
      (seqPositionReady x s).nextBall = s.nextBall ∧
      (seqPositionReady x s).loop.pairNumber = s.loop.pairNumber ∧
      (seqPositionReady x s).loop.up = s.loop.up ∧
      (seqPositionReady x s).loop.timer = s.loop.timer ∧
      (seqPositionReady x s).loop.downTime = s.loop.downTime ∧
      (seqPositionReady x s).loop.groups = s.loop.groups ∧
      (seqPositionReady x s).loop.replies = s.loop.replies ∧
      (seqPositionReady x s).loop.counters = s.loop.counters ∧
      (seqPositionReady x s).loop.out = s.loop.out := by
  unfold seqPositionReady
  simp

@[simp] theorem clearFault_frame (x : Lane) (s : State) :
    (clearFault x s).pending = s.pending ∧
      (clearFault x s).command = s.command ∧
      (clearFault x s).line = s.line ∧
      (clearFault x s).time = s.time ∧
      (clearFault x s).freeChoices = s.freeChoices ∧
      (clearFault x s).nextBall = s.nextBall ∧
      (clearFault x s).loop.pairNumber = s.loop.pairNumber ∧
      (clearFault x s).loop.up = s.loop.up ∧
      (clearFault x s).loop.timer = s.loop.timer ∧
      (clearFault x s).loop.downTime = s.loop.downTime ∧
      (clearFault x s).loop.groups = s.loop.groups ∧
      (clearFault x s).loop.replies = s.loop.replies ∧
      (clearFault x s).loop.counters = s.loop.counters ∧
      (clearFault x s).loop.out = s.loop.out := by
  unfold clearFault
  simp

@[simp] theorem clearLane_frame (x : Lane) (s : State) :
    (clearLane x s).pending = s.pending ∧
      (clearLane x s).command = s.command ∧
      (clearLane x s).line = s.line ∧
      (clearLane x s).time = s.time ∧
      (clearLane x s).freeChoices = s.freeChoices ∧
      (clearLane x s).nextBall = s.nextBall ∧
      (clearLane x s).loop.pairNumber = s.loop.pairNumber ∧
      (clearLane x s).loop.up = s.loop.up ∧
      (clearLane x s).loop.timer = s.loop.timer ∧
      (clearLane x s).loop.downTime = s.loop.downTime ∧
      (clearLane x s).loop.groups = s.loop.groups ∧
      (clearLane x s).loop.replies = s.loop.replies ∧
      (clearLane x s).loop.counters = s.loop.counters ∧
      (clearLane x s).loop.out = s.loop.out := by
  unfold clearLane
  simp

@[simp] theorem consoleClear_frame (x : Lane) (s : State) :
    (consoleClear x s).pending = s.pending ∧
      (consoleClear x s).command = s.command ∧
      (consoleClear x s).line = s.line ∧
      (consoleClear x s).time = s.time ∧
      (consoleClear x s).freeChoices = s.freeChoices ∧
      (consoleClear x s).nextBall = s.nextBall ∧
      (consoleClear x s).loop.pairNumber = s.loop.pairNumber ∧
      (consoleClear x s).loop.up = s.loop.up ∧
      (consoleClear x s).loop.timer = s.loop.timer ∧
      (consoleClear x s).loop.downTime = s.loop.downTime ∧
      (consoleClear x s).loop.groups = s.loop.groups ∧
      (consoleClear x s).loop.replies = s.loop.replies ∧
      (consoleClear x s).loop.counters = s.loop.counters ∧
      (consoleClear x s).loop.out = s.loop.out := by
  unfold consoleClear
  (repeat' split) <;> simp

@[simp] theorem estopCleared_frame (x : Lane) (s : State) :
    (estopCleared x s).pending = s.pending ∧
      (estopCleared x s).command = s.command ∧
      (estopCleared x s).line = s.line ∧
      (estopCleared x s).time = s.time ∧
      (estopCleared x s).freeChoices = s.freeChoices ∧
      (estopCleared x s).nextBall = s.nextBall ∧
      (estopCleared x s).loop.pairNumber = s.loop.pairNumber ∧
      (estopCleared x s).loop.up = s.loop.up ∧
      (estopCleared x s).loop.timer = s.loop.timer ∧
      (estopCleared x s).loop.downTime = s.loop.downTime ∧
      (estopCleared x s).loop.groups = s.loop.groups ∧
      (estopCleared x s).loop.replies = s.loop.replies ∧
      (estopCleared x s).loop.counters = s.loop.counters ∧
      (estopCleared x s).loop.out = s.loop.out := by
  unfold estopCleared
  (repeat' split) <;> simp

@[simp] theorem warmResetSeq_frame (x : Lane) (s : State) :
    (warmResetSeq x s).pending = s.pending ∧
      (warmResetSeq x s).command = s.command ∧
      (warmResetSeq x s).line = s.line ∧
      (warmResetSeq x s).time = s.time ∧
      (warmResetSeq x s).freeChoices = s.freeChoices ∧
      (warmResetSeq x s).nextBall = s.nextBall ∧
      (warmResetSeq x s).loop.pairNumber = s.loop.pairNumber ∧
      (warmResetSeq x s).loop.up = s.loop.up ∧
      (warmResetSeq x s).loop.timer = s.loop.timer ∧
      (warmResetSeq x s).loop.downTime = s.loop.downTime ∧
      (warmResetSeq x s).loop.groups = s.loop.groups ∧
      (warmResetSeq x s).loop.replies = s.loop.replies ∧
      (warmResetSeq x s).loop.counters = s.loop.counters ∧
      (warmResetSeq x s).loop.out = s.loop.out := by
  unfold warmResetSeq
  simp
  (repeat' split) <;> simp

/-! ### Machine/Closing.lean -/

@[simp] theorem completeClose_frame (x : Lane) (s : State) :
    (completeClose x s).pending = s.pending ∧
      (completeClose x s).line = s.line ∧
      (completeClose x s).time = s.time ∧
      (completeClose x s).freeChoices = s.freeChoices ∧
      (completeClose x s).nextBall = s.nextBall ∧
      (completeClose x s).loop.pairNumber = s.loop.pairNumber ∧
      (completeClose x s).loop.up = s.loop.up ∧
      (completeClose x s).loop.timer = s.loop.timer ∧
      (completeClose x s).loop.downTime = s.loop.downTime ∧
      (completeClose x s).loop.groups = s.loop.groups ∧
      (completeClose x s).loop.counters = s.loop.counters ∧
      (completeClose x s).loop.out = s.loop.out := by
  unfold completeClose
  simp
  (repeat' split) <;> simp

@[simp] theorem checkClear_frame (x : Lane) (s : State) :
    (checkClear x s).pending = s.pending ∧
      (checkClear x s).line = s.line ∧
      (checkClear x s).time = s.time ∧
      (checkClear x s).freeChoices = s.freeChoices ∧
      (checkClear x s).nextBall = s.nextBall ∧
      (checkClear x s).loop.pairNumber = s.loop.pairNumber ∧
      (checkClear x s).loop.up = s.loop.up ∧
      (checkClear x s).loop.timer = s.loop.timer ∧
      (checkClear x s).loop.downTime = s.loop.downTime ∧
      (checkClear x s).loop.groups = s.loop.groups ∧
      (checkClear x s).loop.counters = s.loop.counters ∧
      (checkClear x s).loop.out = s.loop.out := by
  unfold checkClear
  (repeat' split) <;> simp

/-! ### Machine/Transit.lean -/

@[simp] theorem attributeFoul_frame (x : Lane) (s : State) :
    (attributeFoul x s).pending = s.pending ∧
      (attributeFoul x s).loop = s.loop ∧
      (attributeFoul x s).command = s.command ∧
      (attributeFoul x s).link = s.link ∧
      (attributeFoul x s).seqs = s.seqs ∧
      (attributeFoul x s).transit = s.transit ∧
      (attributeFoul x s).roster = s.roster ∧
      (attributeFoul x s).score = s.score ∧
      (attributeFoul x s).account = s.account ∧
      (attributeFoul x s).time = s.time ∧
      (attributeFoul x s).freeChoices = s.freeChoices ∧
      (attributeFoul x s).nextBall = s.nextBall := by
  unfold attributeFoul
  simp

@[simp] theorem foulNewest_frame (x : Lane) (b : BallRecord) (h : Bool) (s : State) :
    (foulNewest x b h s).pending = s.pending ∧
      (foulNewest x b h s).loop = s.loop ∧
      (foulNewest x b h s).command = s.command ∧
      (foulNewest x b h s).link = s.link ∧
      (foulNewest x b h s).seqs = s.seqs ∧
      (foulNewest x b h s).roster = s.roster ∧
      (foulNewest x b h s).score = s.score ∧
      (foulNewest x b h s).account = s.account ∧
      (foulNewest x b h s).time = s.time ∧
      (foulNewest x b h s).freeChoices = s.freeChoices ∧
      (foulNewest x b h s).nextBall = s.nextBall := by
  unfold foulNewest
  simp

@[simp] theorem restartIdle_frame (s : State) :
    (restartIdle s).pending = s.pending ∧
      (restartIdle s).loop = s.loop ∧
      (restartIdle s).command = s.command ∧
      (restartIdle s).link = s.link ∧
      (restartIdle s).line = s.line ∧
      (restartIdle s).seqs = s.seqs ∧
      (restartIdle s).roster = s.roster ∧
      (restartIdle s).score = s.score ∧
      (restartIdle s).account = s.account ∧
      (restartIdle s).time = s.time ∧
      (restartIdle s).freeChoices = s.freeChoices ∧
      (restartIdle s).nextBall = s.nextBall := by
  unfold restartIdle
  simp

@[simp] theorem writeOff_frame (n : Nat) (s : State) :
    (writeOff n s).pending = s.pending ∧
      (writeOff n s).loop = s.loop ∧
      (writeOff n s).command = s.command ∧
      (writeOff n s).link = s.link ∧
      (writeOff n s).line = s.line ∧
      (writeOff n s).seqs = s.seqs ∧
      (writeOff n s).roster = s.roster ∧
      (writeOff n s).score = s.score ∧
      (writeOff n s).account = s.account ∧
      (writeOff n s).time = s.time ∧
      (writeOff n s).freeChoices = s.freeChoices ∧
      (writeOff n s).nextBall = s.nextBall := by
  unfold writeOff
  simp

@[simp] theorem raiseLost_frame (x : Lane) (s : State) :
    (raiseLost x s).pending = s.pending ∧
      (raiseLost x s).loop = s.loop ∧
      (raiseLost x s).command = s.command ∧
      (raiseLost x s).link = s.link ∧
      (raiseLost x s).line = s.line ∧
      (raiseLost x s).seqs = s.seqs ∧
      (raiseLost x s).roster = s.roster ∧
      (raiseLost x s).score = s.score ∧
      (raiseLost x s).account = s.account ∧
      (raiseLost x s).time = s.time ∧
      (raiseLost x s).freeChoices = s.freeChoices ∧
      (raiseLost x s).nextBall = s.nextBall := by
  unfold raiseLost
  simp

@[simp] theorem loseOldest_frame (x : Lane) (s : State) :
    (loseOldest x s).pending = s.pending ∧
      (loseOldest x s).command = s.command ∧
      (loseOldest x s).line = s.line ∧
      (loseOldest x s).time = s.time ∧
      (loseOldest x s).freeChoices = s.freeChoices ∧
      (loseOldest x s).nextBall = s.nextBall ∧
      (loseOldest x s).loop.pairNumber = s.loop.pairNumber ∧
      (loseOldest x s).loop.up = s.loop.up ∧
      (loseOldest x s).loop.timer = s.loop.timer ∧
      (loseOldest x s).loop.downTime = s.loop.downTime ∧
      (loseOldest x s).loop.groups = s.loop.groups ∧
      (loseOldest x s).loop.replies = s.loop.replies ∧
      (loseOldest x s).loop.counters = s.loop.counters ∧
      (loseOldest x s).loop.out = s.loop.out := by
  unfold loseOldest
  (repeat' split) <;> simp
  all_goals (repeat' split) <;> simp

@[simp] theorem startFlight_frame (n : Nat) (x : Lane) (s : State) :
    (startFlight n x s).pending = s.pending ∧
      (startFlight n x s).command = s.command ∧
      (startFlight n x s).line = s.line ∧
      (startFlight n x s).time = s.time ∧
      (startFlight n x s).freeChoices = s.freeChoices ∧
      (startFlight n x s).nextBall = s.nextBall ∧
      (startFlight n x s).loop.pairNumber = s.loop.pairNumber ∧
      (startFlight n x s).loop.up = s.loop.up ∧
      (startFlight n x s).loop.timer = s.loop.timer ∧
      (startFlight n x s).loop.downTime = s.loop.downTime ∧
      (startFlight n x s).loop.groups = s.loop.groups ∧
      (startFlight n x s).loop.replies = s.loop.replies ∧
      (startFlight n x s).loop.counters = s.loop.counters ∧
      (startFlight n x s).loop.out = s.loop.out := by
  induction n generalizing s with
  | zero => simp [startFlight]
  | succ n ih => simp only [startFlight]; (repeat' split) <;> simp [ih]

@[simp] theorem restartFlight_frame (x : Lane) (s : State) :
    (restartFlight x s).pending = s.pending ∧
      (restartFlight x s).command = s.command ∧
      (restartFlight x s).line = s.line ∧
      (restartFlight x s).time = s.time ∧
      (restartFlight x s).freeChoices = s.freeChoices ∧
      (restartFlight x s).nextBall = s.nextBall ∧
      (restartFlight x s).loop.pairNumber = s.loop.pairNumber ∧
      (restartFlight x s).loop.up = s.loop.up ∧
      (restartFlight x s).loop.timer = s.loop.timer ∧
      (restartFlight x s).loop.downTime = s.loop.downTime ∧
      (restartFlight x s).loop.groups = s.loop.groups ∧
      (restartFlight x s).loop.replies = s.loop.replies ∧
      (restartFlight x s).loop.counters = s.loop.counters ∧
      (restartFlight x s).loop.out = s.loop.out := by
  unfold restartFlight
  simp

@[simp] theorem launchBall_frame (x : Lane) (t : Nat) (s : State) :
    (launchBall x t s).pending = s.pending ∧
      (launchBall x t s).command = s.command ∧
      (launchBall x t s).time = s.time ∧
      (launchBall x t s).freeChoices = s.freeChoices ∧
      (launchBall x t s).loop.pairNumber = s.loop.pairNumber ∧
      (launchBall x t s).loop.up = s.loop.up ∧
      (launchBall x t s).loop.timer = s.loop.timer ∧
      (launchBall x t s).loop.downTime = s.loop.downTime ∧
      (launchBall x t s).loop.groups = s.loop.groups ∧
      (launchBall x t s).loop.replies = s.loop.replies ∧
      (launchBall x t s).loop.counters = s.loop.counters ∧
      (launchBall x t s).loop.out = s.loop.out := by
  unfold launchBall
  simp
  (repeat' split) <;> simp

@[simp] theorem joinPit_frame (x : Lane) (b : BallRecord) (s : State) :
    (joinPit x b s).1.pending = s.pending ∧
      (joinPit x b s).1.loop = s.loop ∧
      (joinPit x b s).1.command = s.command ∧
      (joinPit x b s).1.link = s.link ∧
      (joinPit x b s).1.line = s.line ∧
      (joinPit x b s).1.seqs = s.seqs ∧
      (joinPit x b s).1.roster = s.roster ∧
      (joinPit x b s).1.score = s.score ∧
      (joinPit x b s).1.account = s.account ∧
      (joinPit x b s).1.time = s.time ∧
      (joinPit x b s).1.freeChoices = s.freeChoices ∧
      (joinPit x b s).1.nextBall = s.nextBall := by
  unfold joinPit
  simp
  (repeat' split) <;> simp

@[simp] theorem pairArrival_frame (x : Lane) (t : Nat) (b : BallRecord) (r : List BallRecord) (s : State) :
    (pairArrival x t b r s).pending = s.pending ∧
      (pairArrival x t b r s).command = s.command ∧
      (pairArrival x t b r s).line = s.line ∧
      (pairArrival x t b r s).time = s.time ∧
      (pairArrival x t b r s).freeChoices = s.freeChoices ∧
      (pairArrival x t b r s).nextBall = s.nextBall ∧
      (pairArrival x t b r s).loop.pairNumber = s.loop.pairNumber ∧
      (pairArrival x t b r s).loop.up = s.loop.up ∧
      (pairArrival x t b r s).loop.timer = s.loop.timer ∧
      (pairArrival x t b r s).loop.downTime = s.loop.downTime ∧
      (pairArrival x t b r s).loop.groups = s.loop.groups ∧
      (pairArrival x t b r s).loop.replies = s.loop.replies ∧
      (pairArrival x t b r s).loop.counters = s.loop.counters ∧
      (pairArrival x t b r s).loop.out = s.loop.out := by
  unfold pairArrival
  simp
  (repeat' split) <;> simp

@[simp] theorem lostArrival_frame (x : Lane) (s : State) :
    (lostArrival x s).pending = s.pending ∧
      (lostArrival x s).loop = s.loop ∧
      (lostArrival x s).command = s.command ∧
      (lostArrival x s).line = s.line ∧
      (lostArrival x s).roster = s.roster ∧
      (lostArrival x s).score = s.score ∧
      (lostArrival x s).account = s.account ∧
      (lostArrival x s).time = s.time ∧
      (lostArrival x s).freeChoices = s.freeChoices := by
  unfold lostArrival
  dsimp only
  split <;> simp

@[simp] theorem inferredArrival_frame (x : Lane) (s : State) :
    (inferredArrival x s).pending = s.pending ∧
      (inferredArrival x s).loop = s.loop ∧
      (inferredArrival x s).command = s.command ∧
      (inferredArrival x s).line = s.line ∧
      (inferredArrival x s).roster = s.roster ∧
      (inferredArrival x s).score = s.score ∧
      (inferredArrival x s).account = s.account ∧
      (inferredArrival x s).time = s.time ∧
      (inferredArrival x s).freeChoices = s.freeChoices := by
  unfold inferredArrival
  simp
  (repeat' split) <;> simp

@[simp] theorem pitBall_frame (x : Lane) (t : Nat) (s : State) :
    (pitBall x t s).pending = s.pending ∧
      (pitBall x t s).line = s.line ∧
      (pitBall x t s).time = s.time ∧
      (pitBall x t s).freeChoices = s.freeChoices ∧
      (pitBall x t s).loop.pairNumber = s.loop.pairNumber ∧
      (pitBall x t s).loop.up = s.loop.up ∧
      (pitBall x t s).loop.timer = s.loop.timer ∧
      (pitBall x t s).loop.downTime = s.loop.downTime ∧
      (pitBall x t s).loop.groups = s.loop.groups ∧
      (pitBall x t s).loop.counters = s.loop.counters ∧
      (pitBall x t s).loop.out = s.loop.out := by
  unfold pitBall
  simp
  (repeat' split) <;> simp

@[simp] theorem foulBall_frame (x : Lane) (t : Nat) (s : State) :
    (foulBall x t s).pending = s.pending ∧
      (foulBall x t s).loop = s.loop ∧
      (foulBall x t s).command = s.command ∧
      (foulBall x t s).link = s.link ∧
      (foulBall x t s).seqs = s.seqs ∧
      (foulBall x t s).roster = s.roster ∧
      (foulBall x t s).score = s.score ∧
      (foulBall x t s).account = s.account ∧
      (foulBall x t s).time = s.time ∧
      (foulBall x t s).freeChoices = s.freeChoices ∧
      (foulBall x t s).nextBall = s.nextBall := by
  unfold foulBall
  (repeat' split) <;> simp
  all_goals (repeat' split) <;> simp

@[simp] theorem serviceTrack_frame (s : State) :
    (serviceTrack s).pending = s.pending ∧
      (serviceTrack s).loop = s.loop ∧
      (serviceTrack s).command = s.command ∧
      (serviceTrack s).link = s.link ∧
      (serviceTrack s).line = s.line ∧
      (serviceTrack s).seqs = s.seqs ∧
      (serviceTrack s).roster = s.roster ∧
      (serviceTrack s).score = s.score ∧
      (serviceTrack s).account = s.account ∧
      (serviceTrack s).time = s.time ∧
      (serviceTrack s).freeChoices = s.freeChoices ∧
      (serviceTrack s).nextBall = s.nextBall := by
  unfold serviceTrack
  (repeat' split) <;> simp

@[simp] theorem restartTrack_frame (s : State) :
    (restartTrack s).pending = s.pending ∧
      (restartTrack s).loop = s.loop ∧
      (restartTrack s).command = s.command ∧
      (restartTrack s).link = s.link ∧
      (restartTrack s).line = s.line ∧
      (restartTrack s).seqs = s.seqs ∧
      (restartTrack s).roster = s.roster ∧
      (restartTrack s).score = s.score ∧
      (restartTrack s).account = s.account ∧
      (restartTrack s).time = s.time ∧
      (restartTrack s).freeChoices = s.freeChoices ∧
      (restartTrack s).nextBall = s.nextBall := by
  unfold restartTrack
  simp

@[simp] theorem raiseReturnFault_frame (c : ReturnFaultCode) (o : Option Byte) (s : State) :
    (raiseReturnFault c o s).pending = s.pending ∧
      (raiseReturnFault c o s).command = s.command ∧
      (raiseReturnFault c o s).link = s.link ∧
      (raiseReturnFault c o s).line = s.line ∧
      (raiseReturnFault c o s).seqs = s.seqs ∧
      (raiseReturnFault c o s).roster = s.roster ∧
      (raiseReturnFault c o s).score = s.score ∧
      (raiseReturnFault c o s).account = s.account ∧
      (raiseReturnFault c o s).time = s.time ∧
      (raiseReturnFault c o s).freeChoices = s.freeChoices ∧
      (raiseReturnFault c o s).nextBall = s.nextBall ∧
      (raiseReturnFault c o s).loop.pairNumber = s.loop.pairNumber ∧
      (raiseReturnFault c o s).loop.up = s.loop.up ∧
      (raiseReturnFault c o s).loop.timer = s.loop.timer ∧
      (raiseReturnFault c o s).loop.downTime = s.loop.downTime ∧
      (raiseReturnFault c o s).loop.groups = s.loop.groups ∧
      (raiseReturnFault c o s).loop.replies = s.loop.replies ∧
      (raiseReturnFault c o s).loop.counters = s.loop.counters ∧
      (raiseReturnFault c o s).loop.out = s.loop.out := by
  unfold raiseReturnFault
  (repeat' split) <;> simp

@[simp] theorem joinTrack_frame (x : Lane) (s : State) :
    (joinTrack x s).pending = s.pending ∧
      (joinTrack x s).loop = s.loop ∧
      (joinTrack x s).command = s.command ∧
      (joinTrack x s).link = s.link ∧
      (joinTrack x s).line = s.line ∧
      (joinTrack x s).seqs = s.seqs ∧
      (joinTrack x s).roster = s.roster ∧
      (joinTrack x s).score = s.score ∧
      (joinTrack x s).account = s.account ∧
      (joinTrack x s).time = s.time ∧
      (joinTrack x s).freeChoices = s.freeChoices ∧
      (joinTrack x s).nextBall = s.nextBall := by
  unfold joinTrack
  simp

@[simp] theorem liftBall_frame (x : Lane) (s : State) :
    (liftBall x s).pending = s.pending ∧
      (liftBall x s).line = s.line ∧
      (liftBall x s).time = s.time ∧
      (liftBall x s).freeChoices = s.freeChoices ∧
      (liftBall x s).nextBall = s.nextBall ∧
      (liftBall x s).loop.pairNumber = s.loop.pairNumber ∧
      (liftBall x s).loop.up = s.loop.up ∧
      (liftBall x s).loop.timer = s.loop.timer ∧
      (liftBall x s).loop.downTime = s.loop.downTime ∧
      (liftBall x s).loop.groups = s.loop.groups ∧
      (liftBall x s).loop.counters = s.loop.counters ∧
      (liftBall x s).loop.out = s.loop.out := by
  unfold liftBall
  simp
  (repeat' split) <;> simp

@[simp] theorem rackArrival_frame (s : State) :
    (rackArrival s).pending = s.pending ∧
      (rackArrival s).line = s.line ∧
      (rackArrival s).time = s.time ∧
      (rackArrival s).freeChoices = s.freeChoices ∧
      (rackArrival s).nextBall = s.nextBall ∧
      (rackArrival s).loop.pairNumber = s.loop.pairNumber ∧
      (rackArrival s).loop.up = s.loop.up ∧
      (rackArrival s).loop.timer = s.loop.timer ∧
      (rackArrival s).loop.downTime = s.loop.downTime ∧
      (rackArrival s).loop.groups = s.loop.groups ∧
      (rackArrival s).loop.counters = s.loop.counters ∧
      (rackArrival s).loop.out = s.loop.out := by
  unfold rackArrival
  simp
  (repeat' split) <;> simp

@[simp] theorem setRack_frame (n : Fin 11) (s : State) :
    (setRack n s).pending = s.pending ∧
      (setRack n s).loop = s.loop ∧
      (setRack n s).command = s.command ∧
      (setRack n s).link = s.link ∧
      (setRack n s).line = s.line ∧
      (setRack n s).seqs = s.seqs ∧
      (setRack n s).roster = s.roster ∧
      (setRack n s).score = s.score ∧
      (setRack n s).account = s.account ∧
      (setRack n s).time = s.time ∧
      (setRack n s).freeChoices = s.freeChoices ∧
      (setRack n s).nextBall = s.nextBall := by
  unfold setRack
  simp

@[simp] theorem clearReturnFault_frame (s : State) :
    (clearReturnFault s).pending = s.pending ∧
      (clearReturnFault s).command = s.command ∧
      (clearReturnFault s).line = s.line ∧
      (clearReturnFault s).roster = s.roster ∧
      (clearReturnFault s).score = s.score ∧
      (clearReturnFault s).account = s.account ∧
      (clearReturnFault s).time = s.time ∧
      (clearReturnFault s).freeChoices = s.freeChoices ∧
      (clearReturnFault s).nextBall = s.nextBall ∧
      (clearReturnFault s).loop.pairNumber = s.loop.pairNumber ∧
      (clearReturnFault s).loop.up = s.loop.up ∧
      (clearReturnFault s).loop.timer = s.loop.timer ∧
      (clearReturnFault s).loop.downTime = s.loop.downTime ∧
      (clearReturnFault s).loop.groups = s.loop.groups ∧
      (clearReturnFault s).loop.replies = s.loop.replies ∧
      (clearReturnFault s).loop.counters = s.loop.counters ∧
      (clearReturnFault s).loop.out = s.loop.out := by
  unfold clearReturnFault
  simp

@[simp] theorem freezeTransit_frame (s : State) :
    (freezeTransit s).pending = s.pending ∧
      (freezeTransit s).loop = s.loop ∧
      (freezeTransit s).command = s.command ∧
      (freezeTransit s).link = s.link ∧
      (freezeTransit s).line = s.line ∧
      (freezeTransit s).seqs = s.seqs ∧
      (freezeTransit s).roster = s.roster ∧
      (freezeTransit s).score = s.score ∧
      (freezeTransit s).account = s.account ∧
      (freezeTransit s).time = s.time ∧
      (freezeTransit s).freeChoices = s.freeChoices ∧
      (freezeTransit s).nextBall = s.nextBall := by
  unfold freezeTransit
  simp

@[simp] theorem resumeTransit_frame (s : State) :
    (resumeTransit s).pending = s.pending ∧
      (resumeTransit s).loop = s.loop ∧
      (resumeTransit s).command = s.command ∧
      (resumeTransit s).link = s.link ∧
      (resumeTransit s).line = s.line ∧
      (resumeTransit s).seqs = s.seqs ∧
      (resumeTransit s).roster = s.roster ∧
      (resumeTransit s).score = s.score ∧
      (resumeTransit s).account = s.account ∧
      (resumeTransit s).time = s.time ∧
      (resumeTransit s).freeChoices = s.freeChoices ∧
      (resumeTransit s).nextBall = s.nextBall := by
  unfold resumeTransit
  simp

@[simp] theorem closeWriteOff_frame (x : Lane) (s : State) :
    (closeWriteOff x s).pending = s.pending ∧
      (closeWriteOff x s).loop = s.loop ∧
      (closeWriteOff x s).command = s.command ∧
      (closeWriteOff x s).line = s.line ∧
      (closeWriteOff x s).roster = s.roster ∧
      (closeWriteOff x s).score = s.score ∧
      (closeWriteOff x s).account = s.account ∧
      (closeWriteOff x s).time = s.time ∧
      (closeWriteOff x s).freeChoices = s.freeChoices ∧
      (closeWriteOff x s).nextBall = s.nextBall := by
  unfold closeWriteOff
  simp
  (repeat' split) <;> simp

/-! ### Machine/RosterDesk.lean -/

@[simp] theorem setSession_frame (m : Mode) (f : Format) (l : Nat) (x : Lane) (s : State) :
    (setSession m f l x s).1.pending = s.pending ∧
      (setSession m f l x s).1.loop = s.loop ∧
      (setSession m f l x s).1.command = s.command ∧
      (setSession m f l x s).1.link = s.link ∧
      (setSession m f l x s).1.line = s.line ∧
      (setSession m f l x s).1.seqs = s.seqs ∧
      (setSession m f l x s).1.transit = s.transit ∧
      (setSession m f l x s).1.score = s.score ∧
      (setSession m f l x s).1.account = s.account ∧
      (setSession m f l x s).1.time = s.time ∧
      (setSession m f l x s).1.freeChoices = s.freeChoices ∧
      (setSession m f l x s).1.nextBall = s.nextBall := by
  unfold setSession
  (repeat' split) <;> simp

@[simp] theorem emptyScores_frame (s : State) :
    (emptyScores s).pending = s.pending ∧
      (emptyScores s).loop = s.loop ∧
      (emptyScores s).command = s.command ∧
      (emptyScores s).line = s.line ∧
      (emptyScores s).seqs = s.seqs ∧
      (emptyScores s).transit = s.transit ∧
      (emptyScores s).roster = s.roster ∧
      (emptyScores s).account = s.account ∧
      (emptyScores s).time = s.time ∧
      (emptyScores s).freeChoices = s.freeChoices ∧
      (emptyScores s).nextBall = s.nextBall := by
  unfold emptyScores
  simp

@[simp] theorem endSession_frame (s : State) :
    (endSession s).1.pending = s.pending ∧
      (endSession s).1.loop = s.loop ∧
      (endSession s).1.command = s.command ∧
      (endSession s).1.line = s.line ∧
      (endSession s).1.account = s.account ∧
      (endSession s).1.time = s.time ∧
      (endSession s).1.freeChoices = s.freeChoices ∧
      (endSession s).1.nextBall = s.nextBall := by
  unfold endSession
  (repeat' split) <;> simp

@[simp] theorem newEntry_frame (k : Slot) (st : BowlerStatus) (t : Option Team) (x : Lane) (s : State) :
    (newEntry k st t x s).pending = s.pending ∧
      (newEntry k st t x s).loop = s.loop ∧
      (newEntry k st t x s).command = s.command ∧
      (newEntry k st t x s).link = s.link ∧
      (newEntry k st t x s).line = s.line ∧
      (newEntry k st t x s).seqs = s.seqs ∧
      (newEntry k st t x s).transit = s.transit ∧
      (newEntry k st t x s).account = s.account ∧
      (newEntry k st t x s).time = s.time ∧
      (newEntry k st t x s).freeChoices = s.freeChoices ∧
      (newEntry k st t x s).nextBall = s.nextBall := by
  unfold newEntry
  simp

@[simp] theorem joinQueue_frame (x : Lane) (k : Slot) (s : State) :
    (joinQueue x k s).pending = s.pending ∧
      (joinQueue x k s).command = s.command ∧
      (joinQueue x k s).line = s.line ∧
      (joinQueue x k s).score = s.score ∧
      (joinQueue x k s).time = s.time ∧
      (joinQueue x k s).freeChoices = s.freeChoices ∧
      (joinQueue x k s).nextBall = s.nextBall ∧
      (joinQueue x k s).loop.pairNumber = s.loop.pairNumber ∧
      (joinQueue x k s).loop.up = s.loop.up ∧
      (joinQueue x k s).loop.timer = s.loop.timer ∧
      (joinQueue x k s).loop.downTime = s.loop.downTime ∧
      (joinQueue x k s).loop.groups = s.loop.groups ∧
      (joinQueue x k s).loop.replies = s.loop.replies ∧
      (joinQueue x k s).loop.counters = s.loop.counters ∧
      (joinQueue x k s).loop.out = s.loop.out := by
  unfold joinQueue
  simp
  (repeat' split) <;> simp

@[simp] theorem addBowler_frame (k : Slot) (t : Target) (s : State) :
    (addBowler k t s).1.pending = s.pending ∧
      (addBowler k t s).1.command = s.command ∧
      (addBowler k t s).1.line = s.line ∧
      (addBowler k t s).1.time = s.time ∧
      (addBowler k t s).1.freeChoices = s.freeChoices ∧
      (addBowler k t s).1.nextBall = s.nextBall ∧
      (addBowler k t s).1.loop.pairNumber = s.loop.pairNumber ∧
      (addBowler k t s).1.loop.up = s.loop.up ∧
      (addBowler k t s).1.loop.timer = s.loop.timer ∧
      (addBowler k t s).1.loop.downTime = s.loop.downTime ∧
      (addBowler k t s).1.loop.groups = s.loop.groups ∧
      (addBowler k t s).1.loop.replies = s.loop.replies ∧
      (addBowler k t s).1.loop.counters = s.loop.counters ∧
      (addBowler k t s).1.loop.out = s.loop.out := by
  unfold addBowler
  (repeat' split) <;> simp

@[simp] theorem moveNow_frame (k : Slot) (e : RosterEntry) (x : Lane) (s : State) :
    (moveNow k e x s).pending = s.pending ∧
      (moveNow k e x s).command = s.command ∧
      (moveNow k e x s).line = s.line ∧
      (moveNow k e x s).score = s.score ∧
      (moveNow k e x s).time = s.time ∧
      (moveNow k e x s).freeChoices = s.freeChoices ∧
      (moveNow k e x s).nextBall = s.nextBall ∧
      (moveNow k e x s).loop.pairNumber = s.loop.pairNumber ∧
      (moveNow k e x s).loop.up = s.loop.up ∧
      (moveNow k e x s).loop.timer = s.loop.timer ∧
      (moveNow k e x s).loop.downTime = s.loop.downTime ∧
      (moveNow k e x s).loop.groups = s.loop.groups ∧
      (moveNow k e x s).loop.replies = s.loop.replies ∧
      (moveNow k e x s).loop.counters = s.loop.counters ∧
      (moveNow k e x s).loop.out = s.loop.out := by
  unfold moveNow
  (repeat' split) <;> simp

@[simp] theorem moveBowler_frame (k : Slot) (x : Lane) (s : State) :
    (moveBowler k x s).1.pending = s.pending ∧
      (moveBowler k x s).1.command = s.command ∧
      (moveBowler k x s).1.line = s.line ∧
      (moveBowler k x s).1.score = s.score ∧
      (moveBowler k x s).1.time = s.time ∧
      (moveBowler k x s).1.freeChoices = s.freeChoices ∧
      (moveBowler k x s).1.nextBall = s.nextBall ∧
      (moveBowler k x s).1.loop.pairNumber = s.loop.pairNumber ∧
      (moveBowler k x s).1.loop.up = s.loop.up ∧
      (moveBowler k x s).1.loop.timer = s.loop.timer ∧
      (moveBowler k x s).1.loop.downTime = s.loop.downTime ∧
      (moveBowler k x s).1.loop.groups = s.loop.groups ∧
      (moveBowler k x s).1.loop.replies = s.loop.replies ∧
      (moveBowler k x s).1.loop.counters = s.loop.counters ∧
      (moveBowler k x s).1.loop.out = s.loop.out := by
  unfold moveBowler
  (repeat' split) <;> simp

@[simp] theorem withdrawBowler_frame (k : Slot) (s : State) :
    (withdrawBowler k s).1.pending = s.pending ∧
      (withdrawBowler k s).1.command = s.command ∧
      (withdrawBowler k s).1.line = s.line ∧
      (withdrawBowler k s).1.time = s.time ∧
      (withdrawBowler k s).1.freeChoices = s.freeChoices ∧
      (withdrawBowler k s).1.nextBall = s.nextBall ∧
      (withdrawBowler k s).1.loop.pairNumber = s.loop.pairNumber ∧
      (withdrawBowler k s).1.loop.up = s.loop.up ∧
      (withdrawBowler k s).1.loop.timer = s.loop.timer ∧
      (withdrawBowler k s).1.loop.downTime = s.loop.downTime ∧
      (withdrawBowler k s).1.loop.groups = s.loop.groups ∧
      (withdrawBowler k s).1.loop.replies = s.loop.replies ∧
      (withdrawBowler k s).1.loop.counters = s.loop.counters ∧
      (withdrawBowler k s).1.loop.out = s.loop.out := by
  unfold withdrawBowler
  (repeat' split) <;> simp

@[simp] theorem skipBowler_frame (x : Lane) (s : State) :
    (skipBowler x s).1.pending = s.pending ∧
      (skipBowler x s).1.command = s.command ∧
      (skipBowler x s).1.line = s.line ∧
      (skipBowler x s).1.score = s.score ∧
      (skipBowler x s).1.time = s.time ∧
      (skipBowler x s).1.freeChoices = s.freeChoices ∧
      (skipBowler x s).1.nextBall = s.nextBall ∧
      (skipBowler x s).1.loop.pairNumber = s.loop.pairNumber ∧
      (skipBowler x s).1.loop.up = s.loop.up ∧
      (skipBowler x s).1.loop.timer = s.loop.timer ∧
      (skipBowler x s).1.loop.downTime = s.loop.downTime ∧
      (skipBowler x s).1.loop.groups = s.loop.groups ∧
      (skipBowler x s).1.loop.replies = s.loop.replies ∧
      (skipBowler x s).1.loop.counters = s.loop.counters ∧
      (skipBowler x s).1.loop.out = s.loop.out := by
  unfold skipBowler
  (repeat' split) <;> simp

/-! ### Machine/PitLink.lean -/

@[simp] theorem sendCell_frame (p : Position) (s : State) :
    (sendCell p s).pending = s.pending ∧
      (sendCell p s).loop = s.loop ∧
      (sendCell p s).command = s.command ∧
      (sendCell p s).line = s.line ∧
      (sendCell p s).seqs = s.seqs ∧
      (sendCell p s).transit = s.transit ∧
      (sendCell p s).roster = s.roster ∧
      (sendCell p s).score = s.score ∧
      (sendCell p s).account = s.account ∧
      (sendCell p s).time = s.time ∧
      (sendCell p s).freeChoices = s.freeChoices ∧
      (sendCell p s).nextBall = s.nextBall := by
  unfold sendCell
  simp

@[simp] theorem carryQuery_frame (m : Stations Bool) (s : State) :
    (carryQuery m s).pending = s.pending ∧
      (carryQuery m s).loop = s.loop ∧
      (carryQuery m s).link = s.link ∧
      (carryQuery m s).line = s.line ∧
      (carryQuery m s).seqs = s.seqs ∧
      (carryQuery m s).transit = s.transit ∧
      (carryQuery m s).roster = s.roster ∧
      (carryQuery m s).score = s.score ∧
      (carryQuery m s).account = s.account ∧
      (carryQuery m s).time = s.time ∧
      (carryQuery m s).freeChoices = s.freeChoices ∧
      (carryQuery m s).nextBall = s.nextBall := by
  unfold carryQuery
  (repeat' split) <;> simp

@[simp] theorem startRound_frame (s : State) :
    (startRound s).pending = s.pending ∧
      (startRound s).loop = s.loop ∧
      (startRound s).line = s.line ∧
      (startRound s).seqs = s.seqs ∧
      (startRound s).transit = s.transit ∧
      (startRound s).roster = s.roster ∧
      (startRound s).score = s.score ∧
      (startRound s).account = s.account ∧
      (startRound s).time = s.time ∧
      (startRound s).freeChoices = s.freeChoices ∧
      (startRound s).nextBall = s.nextBall := by
  unfold startRound
  simp

@[simp] theorem loseStation_frame (p : Position) (s : State) :
    (loseStation p s).pending = s.pending ∧
      (loseStation p s).command = s.command ∧
      (loseStation p s).line = s.line ∧
      (loseStation p s).time = s.time ∧
      (loseStation p s).freeChoices = s.freeChoices ∧
      (loseStation p s).nextBall = s.nextBall ∧
      (loseStation p s).loop.pairNumber = s.loop.pairNumber ∧
      (loseStation p s).loop.up = s.loop.up ∧
      (loseStation p s).loop.timer = s.loop.timer ∧
      (loseStation p s).loop.downTime = s.loop.downTime ∧
      (loseStation p s).loop.groups = s.loop.groups ∧
      (loseStation p s).loop.replies = s.loop.replies ∧
      (loseStation p s).loop.counters = s.loop.counters ∧
      (loseStation p s).loop.out = s.loop.out := by
  unfold loseStation
  (repeat' split) <;> simp

@[simp] theorem missReport_frame (p : Position) (s : State) :
    (missReport p s).pending = s.pending ∧
      (missReport p s).command = s.command ∧
      (missReport p s).line = s.line ∧
      (missReport p s).time = s.time ∧
      (missReport p s).freeChoices = s.freeChoices ∧
      (missReport p s).nextBall = s.nextBall ∧
      (missReport p s).loop.pairNumber = s.loop.pairNumber ∧
      (missReport p s).loop.up = s.loop.up ∧
      (missReport p s).loop.timer = s.loop.timer ∧
      (missReport p s).loop.downTime = s.loop.downTime ∧
      (missReport p s).loop.groups = s.loop.groups ∧
      (missReport p s).loop.replies = s.loop.replies ∧
      (missReport p s).loop.counters = s.loop.counters ∧
      (missReport p s).loop.out = s.loop.out := by
  unfold missReport
  (repeat' split) <;> simp
  all_goals (repeat' split) <;> simp

@[simp] theorem missQuery_frame (p : Position) (s : State) :
    (missQuery p s).pending = s.pending ∧
      (missQuery p s).link = s.link ∧
      (missQuery p s).line = s.line ∧
      (missQuery p s).seqs = s.seqs ∧
      (missQuery p s).transit = s.transit ∧
      (missQuery p s).roster = s.roster ∧
      (missQuery p s).score = s.score ∧
      (missQuery p s).account = s.account ∧
      (missQuery p s).time = s.time ∧
      (missQuery p s).freeChoices = s.freeChoices ∧
      (missQuery p s).nextBall = s.nextBall ∧
      (missQuery p s).loop.pairNumber = s.loop.pairNumber ∧
      (missQuery p s).loop.up = s.loop.up ∧
      (missQuery p s).loop.timer = s.loop.timer ∧
      (missQuery p s).loop.downTime = s.loop.downTime ∧
      (missQuery p s).loop.groups = s.loop.groups ∧
      (missQuery p s).loop.counters = s.loop.counters ∧
      (missQuery p s).loop.out = s.loop.out := by
  unfold missQuery
  (repeat' split) <;> simp

@[simp] theorem quietComplete_frame (s : State) :
    (quietComplete s).pending = s.pending ∧
      (quietComplete s).line = s.line ∧
      (quietComplete s).seqs = s.seqs ∧
      (quietComplete s).transit = s.transit ∧
      (quietComplete s).roster = s.roster ∧
      (quietComplete s).score = s.score ∧
      (quietComplete s).account = s.account ∧
      (quietComplete s).time = s.time ∧
      (quietComplete s).freeChoices = s.freeChoices ∧
      (quietComplete s).nextBall = s.nextBall ∧
      (quietComplete s).loop.pairNumber = s.loop.pairNumber ∧
      (quietComplete s).loop.up = s.loop.up ∧
      (quietComplete s).loop.timer = s.loop.timer ∧
      (quietComplete s).loop.downTime = s.loop.downTime ∧
      (quietComplete s).loop.groups = s.loop.groups ∧
      (quietComplete s).loop.counters = s.loop.counters ∧
      (quietComplete s).loop.out = s.loop.out := by
  unfold quietComplete
  dsimp only
  split <;> simp [eachPosition]

@[simp] theorem wakeLink_frame (s : State) :
    (wakeLink s).pending = s.pending ∧
      (wakeLink s).loop = s.loop ∧
      (wakeLink s).line = s.line ∧
      (wakeLink s).seqs = s.seqs ∧
      (wakeLink s).transit = s.transit ∧
      (wakeLink s).roster = s.roster ∧
      (wakeLink s).score = s.score ∧
      (wakeLink s).account = s.account ∧
      (wakeLink s).time = s.time ∧
      (wakeLink s).freeChoices = s.freeChoices ∧
      (wakeLink s).nextBall = s.nextBall := by
  unfold wakeLink
  (repeat' split) <;> simp
  all_goals (repeat' split) <;> simp

@[simp] theorem quietLink_frame (s : State) :
    (quietLink s).1.pending = s.pending ∧
      (quietLink s).1.loop = s.loop ∧
      (quietLink s).1.command = s.command ∧
      (quietLink s).1.line = s.line ∧
      (quietLink s).1.seqs = s.seqs ∧
      (quietLink s).1.transit = s.transit ∧
      (quietLink s).1.roster = s.roster ∧
      (quietLink s).1.score = s.score ∧
      (quietLink s).1.account = s.account ∧
      (quietLink s).1.time = s.time ∧
      (quietLink s).1.freeChoices = s.freeChoices ∧
      (quietLink s).1.nextBall = s.nextBall := by
  unfold quietLink
  (repeat' split) <;> simp

@[simp] theorem restartLink_frame (c : Bool) (s : State) :
    (restartLink c s).pending = s.pending ∧
      (restartLink c s).loop = s.loop ∧
      (restartLink c s).line = s.line ∧
      (restartLink c s).seqs = s.seqs ∧
      (restartLink c s).transit = s.transit ∧
      (restartLink c s).roster = s.roster ∧
      (restartLink c s).score = s.score ∧
      (restartLink c s).account = s.account ∧
      (restartLink c s).time = s.time ∧
      (restartLink c s).freeChoices = s.freeChoices ∧
      (restartLink c s).nextBall = s.nextBall := by
  unfold restartLink
  dsimp only
  (repeat' split) <;> simp [eachPosition]

@[simp] theorem roundComplete_frame (q : Bool) (s : State) :
    (roundComplete q s).pending = s.pending ∧
      (roundComplete q s).line = s.line ∧
      (roundComplete q s).seqs = s.seqs ∧
      (roundComplete q s).transit = s.transit ∧
      (roundComplete q s).roster = s.roster ∧
      (roundComplete q s).score = s.score ∧
      (roundComplete q s).account = s.account ∧
      (roundComplete q s).time = s.time ∧
      (roundComplete q s).freeChoices = s.freeChoices ∧
      (roundComplete q s).nextBall = s.nextBall ∧
      (roundComplete q s).loop.pairNumber = s.loop.pairNumber ∧
      (roundComplete q s).loop.up = s.loop.up ∧
      (roundComplete q s).loop.timer = s.loop.timer ∧
      (roundComplete q s).loop.downTime = s.loop.downTime ∧
      (roundComplete q s).loop.groups = s.loop.groups ∧
      (roundComplete q s).loop.counters = s.loop.counters ∧
      (roundComplete q s).loop.out = s.loop.out := by
  unfold roundComplete
  (repeat' split) <;> simp
  all_goals (repeat' split) <;> simp

@[simp] theorem closeWindow_frame (p : Position) (s : State) :
    (closeWindow p s).pending = s.pending ∧
      (closeWindow p s).line = s.line ∧
      (closeWindow p s).time = s.time ∧
      (closeWindow p s).freeChoices = s.freeChoices ∧
      (closeWindow p s).nextBall = s.nextBall ∧
      (closeWindow p s).loop.pairNumber = s.loop.pairNumber ∧
      (closeWindow p s).loop.up = s.loop.up ∧
      (closeWindow p s).loop.timer = s.loop.timer ∧
      (closeWindow p s).loop.downTime = s.loop.downTime ∧
      (closeWindow p s).loop.groups = s.loop.groups ∧
      (closeWindow p s).loop.counters = s.loop.counters ∧
      (closeWindow p s).loop.out = s.loop.out := by
  unfold closeWindow
  (repeat' split) <;> simp

@[simp] theorem stationReady_frame (p : Position) (s : State) :
    (stationReady p s).pending = s.pending ∧
      (stationReady p s).command = s.command ∧
      (stationReady p s).line = s.line ∧
      (stationReady p s).time = s.time ∧
      (stationReady p s).freeChoices = s.freeChoices ∧
      (stationReady p s).nextBall = s.nextBall ∧
      (stationReady p s).loop.pairNumber = s.loop.pairNumber ∧
      (stationReady p s).loop.up = s.loop.up ∧
      (stationReady p s).loop.timer = s.loop.timer ∧
      (stationReady p s).loop.downTime = s.loop.downTime ∧
      (stationReady p s).loop.groups = s.loop.groups ∧
      (stationReady p s).loop.replies = s.loop.replies ∧
      (stationReady p s).loop.counters = s.loop.counters ∧
      (stationReady p s).loop.out = s.loop.out := by
  unfold stationReady
  (repeat' split) <;> simp

@[simp] theorem reportState_frame (p : Position) (r : Report) (s : State) :
    (reportState p r s).pending = s.pending ∧
      (reportState p r s).command = s.command ∧
      (reportState p r s).line = s.line ∧
      (reportState p r s).time = s.time ∧
      (reportState p r s).freeChoices = s.freeChoices ∧
      (reportState p r s).nextBall = s.nextBall ∧
      (reportState p r s).loop.pairNumber = s.loop.pairNumber ∧
      (reportState p r s).loop.up = s.loop.up ∧
      (reportState p r s).loop.timer = s.loop.timer ∧
      (reportState p r s).loop.downTime = s.loop.downTime ∧
      (reportState p r s).loop.groups = s.loop.groups ∧
      (reportState p r s).loop.replies = s.loop.replies ∧
      (reportState p r s).loop.counters = s.loop.counters ∧
      (reportState p r s).loop.out = s.loop.out := by
  unfold reportState
  simp
  (repeat' split) <;> simp

@[simp] theorem times_liftBall_frame (x : Lane) (n : Nat) (s : State) :
    (times (liftBall x) n s).pending = s.pending ∧
      (times (liftBall x) n s).line = s.line ∧
      (times (liftBall x) n s).time = s.time ∧
      (times (liftBall x) n s).freeChoices = s.freeChoices ∧
      (times (liftBall x) n s).nextBall = s.nextBall ∧
      (times (liftBall x) n s).loop.pairNumber = s.loop.pairNumber ∧
      (times (liftBall x) n s).loop.up = s.loop.up ∧
      (times (liftBall x) n s).loop.timer = s.loop.timer ∧
      (times (liftBall x) n s).loop.downTime = s.loop.downTime ∧
      (times (liftBall x) n s).loop.groups = s.loop.groups ∧
      (times (liftBall x) n s).loop.counters = s.loop.counters ∧
      (times (liftBall x) n s).loop.out = s.loop.out :=
  ⟨times_leaves (fun s => s.pending) _ (by simp) n s,
    times_leaves (fun s => s.line) _ (by simp) n s,
    times_leaves (fun s => s.time) _ (by simp) n s,
    times_leaves (fun s => s.freeChoices) _ (by simp) n s,
    times_leaves (fun s => s.nextBall) _ (by simp) n s,
    times_leaves (fun s => s.loop.pairNumber) _ (by simp) n s,
    times_leaves (fun s => s.loop.up) _ (by simp) n s,
    times_leaves (fun s => s.loop.timer) _ (by simp) n s,
    times_leaves (fun s => s.loop.downTime) _ (by simp) n s,
    times_leaves (fun s => s.loop.groups) _ (by simp) n s,
    times_leaves (fun s => s.loop.counters) _ (by simp) n s,
    times_leaves (fun s => s.loop.out) _ (by simp) n s⟩

@[simp] theorem times_rackArrival_frame (n : Nat) (s : State) :
    (times (rackArrival) n s).pending = s.pending ∧
      (times (rackArrival) n s).line = s.line ∧
      (times (rackArrival) n s).time = s.time ∧
      (times (rackArrival) n s).freeChoices = s.freeChoices ∧
      (times (rackArrival) n s).nextBall = s.nextBall ∧
      (times (rackArrival) n s).loop.pairNumber = s.loop.pairNumber ∧
      (times (rackArrival) n s).loop.up = s.loop.up ∧
      (times (rackArrival) n s).loop.timer = s.loop.timer ∧
      (times (rackArrival) n s).loop.downTime = s.loop.downTime ∧
      (times (rackArrival) n s).loop.groups = s.loop.groups ∧
      (times (rackArrival) n s).loop.counters = s.loop.counters ∧
      (times (rackArrival) n s).loop.out = s.loop.out :=
  ⟨times_leaves (fun s => s.pending) _ (by simp) n s,
    times_leaves (fun s => s.line) _ (by simp) n s,
    times_leaves (fun s => s.time) _ (by simp) n s,
    times_leaves (fun s => s.freeChoices) _ (by simp) n s,
    times_leaves (fun s => s.nextBall) _ (by simp) n s,
    times_leaves (fun s => s.loop.pairNumber) _ (by simp) n s,
    times_leaves (fun s => s.loop.up) _ (by simp) n s,
    times_leaves (fun s => s.loop.timer) _ (by simp) n s,
    times_leaves (fun s => s.loop.downTime) _ (by simp) n s,
    times_leaves (fun s => s.loop.groups) _ (by simp) n s,
    times_leaves (fun s => s.loop.counters) _ (by simp) n s,
    times_leaves (fun s => s.loop.out) _ (by simp) n s⟩

@[simp] theorem reportCounter_frame (p : Position) (r : Report) (s : State) :
    (reportCounter p r s).pending = s.pending ∧
      (reportCounter p r s).line = s.line ∧
      (reportCounter p r s).time = s.time ∧
      (reportCounter p r s).freeChoices = s.freeChoices ∧
      (reportCounter p r s).nextBall = s.nextBall ∧
      (reportCounter p r s).loop.pairNumber = s.loop.pairNumber ∧
      (reportCounter p r s).loop.up = s.loop.up ∧
      (reportCounter p r s).loop.timer = s.loop.timer ∧
      (reportCounter p r s).loop.downTime = s.loop.downTime ∧
      (reportCounter p r s).loop.groups = s.loop.groups ∧
      (reportCounter p r s).loop.counters = s.loop.counters ∧
      (reportCounter p r s).loop.out = s.loop.out := by
  unfold reportCounter
  (repeat' split) <;> simp

@[simp] theorem reportCondition_frame (p : Position) (h : Bool) (r : Report) (s : State) :
    (reportCondition p h r s).pending = s.pending ∧
      (reportCondition p h r s).command = s.command ∧
      (reportCondition p h r s).line = s.line ∧
      (reportCondition p h r s).time = s.time ∧
      (reportCondition p h r s).freeChoices = s.freeChoices ∧
      (reportCondition p h r s).nextBall = s.nextBall ∧
      (reportCondition p h r s).loop.pairNumber = s.loop.pairNumber ∧
      (reportCondition p h r s).loop.up = s.loop.up ∧
      (reportCondition p h r s).loop.timer = s.loop.timer ∧
      (reportCondition p h r s).loop.downTime = s.loop.downTime ∧
      (reportCondition p h r s).loop.groups = s.loop.groups ∧
      (reportCondition p h r s).loop.replies = s.loop.replies ∧
      (reportCondition p h r s).loop.counters = s.loop.counters ∧
      (reportCondition p h r s).loop.out = s.loop.out := by
  unfold reportCondition
  (repeat' split) <;> simp

@[simp] theorem echoEnds_frame (p : Position) (o : Order) (st : EchoState) (s : State) :
    (echoEnds p o st s).pending = s.pending ∧
      (echoEnds p o st s).command = s.command ∧
      (echoEnds p o st s).line = s.line ∧
      (echoEnds p o st s).time = s.time ∧
      (echoEnds p o st s).freeChoices = s.freeChoices ∧
      (echoEnds p o st s).nextBall = s.nextBall ∧
      (echoEnds p o st s).loop.pairNumber = s.loop.pairNumber ∧
      (echoEnds p o st s).loop.up = s.loop.up ∧
      (echoEnds p o st s).loop.timer = s.loop.timer ∧
      (echoEnds p o st s).loop.downTime = s.loop.downTime ∧
      (echoEnds p o st s).loop.groups = s.loop.groups ∧
      (echoEnds p o st s).loop.replies = s.loop.replies ∧
      (echoEnds p o st s).loop.counters = s.loop.counters ∧
      (echoEnds p o st s).loop.out = s.loop.out := by
  unfold echoEnds
  (repeat' split) <;> simp

@[simp] theorem reportEcho_frame (p : Position) (r : Report) (s : State) :
    (reportEcho p r s).pending = s.pending ∧
      (reportEcho p r s).command = s.command ∧
      (reportEcho p r s).line = s.line ∧
      (reportEcho p r s).time = s.time ∧
      (reportEcho p r s).freeChoices = s.freeChoices ∧
      (reportEcho p r s).nextBall = s.nextBall ∧
      (reportEcho p r s).loop.pairNumber = s.loop.pairNumber ∧
      (reportEcho p r s).loop.up = s.loop.up ∧
      (reportEcho p r s).loop.timer = s.loop.timer ∧
      (reportEcho p r s).loop.downTime = s.loop.downTime ∧
      (reportEcho p r s).loop.groups = s.loop.groups ∧
      (reportEcho p r s).loop.replies = s.loop.replies ∧
      (reportEcho p r s).loop.counters = s.loop.counters ∧
      (reportEcho p r s).loop.out = s.loop.out := by
  unfold reportEcho
  (repeat' split) <;> simp

@[simp] theorem callDesk_frame (x : Lane) (s : State) :
    (callDesk x s).pending = s.pending ∧
      (callDesk x s).command = s.command ∧
      (callDesk x s).line = s.line ∧
      (callDesk x s).time = s.time ∧
      (callDesk x s).freeChoices = s.freeChoices ∧
      (callDesk x s).nextBall = s.nextBall ∧
      (callDesk x s).loop.pairNumber = s.loop.pairNumber ∧
      (callDesk x s).loop.up = s.loop.up ∧
      (callDesk x s).loop.timer = s.loop.timer ∧
      (callDesk x s).loop.downTime = s.loop.downTime ∧
      (callDesk x s).loop.groups = s.loop.groups ∧
      (callDesk x s).loop.replies = s.loop.replies ∧
      (callDesk x s).loop.counters = s.loop.counters ∧
      (callDesk x s).loop.out = s.loop.out := by
  unfold callDesk
  simp
  (repeat' split) <;> simp

@[simp] theorem handRequest_frame (x : Lane) (q : Request) (s : State) :
    (handRequest x q s).1.pending = s.pending ∧
      (handRequest x q s).1.command = s.command ∧
      (handRequest x q s).1.line = s.line ∧
      (handRequest x q s).1.time = s.time ∧
      (handRequest x q s).1.freeChoices = s.freeChoices ∧
      (handRequest x q s).1.nextBall = s.nextBall ∧
      (handRequest x q s).1.loop.pairNumber = s.loop.pairNumber ∧
      (handRequest x q s).1.loop.up = s.loop.up ∧
      (handRequest x q s).1.loop.timer = s.loop.timer ∧
      (handRequest x q s).1.loop.downTime = s.loop.downTime ∧
      (handRequest x q s).1.loop.groups = s.loop.groups ∧
      (handRequest x q s).1.loop.replies = s.loop.replies ∧
      (handRequest x q s).1.loop.counters = s.loop.counters ∧
      (handRequest x q s).1.loop.out = s.loop.out := by
  unfold handRequest
  (repeat' split) <;> simp

@[simp] theorem reportRequest_frame (x : Lane) (q : Bool) (r : Report) (s : State) :
    (reportRequest x q r s).pending = s.pending ∧
      (reportRequest x q r s).command = s.command ∧
      (reportRequest x q r s).line = s.line ∧
      (reportRequest x q r s).time = s.time ∧
      (reportRequest x q r s).freeChoices = s.freeChoices ∧
      (reportRequest x q r s).nextBall = s.nextBall ∧
      (reportRequest x q r s).loop.pairNumber = s.loop.pairNumber ∧
      (reportRequest x q r s).loop.up = s.loop.up ∧
      (reportRequest x q r s).loop.timer = s.loop.timer ∧
      (reportRequest x q r s).loop.downTime = s.loop.downTime ∧
      (reportRequest x q r s).loop.groups = s.loop.groups ∧
      (reportRequest x q r s).loop.replies = s.loop.replies ∧
      (reportRequest x q r s).loop.counters = s.loop.counters ∧
      (reportRequest x q r s).loop.out = s.loop.out := by
  unfold reportRequest
  (repeat' split) <;> simp
  all_goals (repeat' split) <;> simp

@[simp] theorem completeQuery_frame (p : Position) (s : State) :
    (completeQuery p s).pending = s.pending ∧
      (completeQuery p s).link = s.link ∧
      (completeQuery p s).line = s.line ∧
      (completeQuery p s).seqs = s.seqs ∧
      (completeQuery p s).transit = s.transit ∧
      (completeQuery p s).roster = s.roster ∧
      (completeQuery p s).score = s.score ∧
      (completeQuery p s).account = s.account ∧
      (completeQuery p s).time = s.time ∧
      (completeQuery p s).freeChoices = s.freeChoices ∧
      (completeQuery p s).nextBall = s.nextBall ∧
      (completeQuery p s).loop.pairNumber = s.loop.pairNumber ∧
      (completeQuery p s).loop.up = s.loop.up ∧
      (completeQuery p s).loop.timer = s.loop.timer ∧
      (completeQuery p s).loop.downTime = s.loop.downTime ∧
      (completeQuery p s).loop.groups = s.loop.groups ∧
      (completeQuery p s).loop.counters = s.loop.counters ∧
      (completeQuery p s).loop.out = s.loop.out := by
  unfold completeQuery
  (repeat' split) <;> simp

@[simp] theorem handleReport_frame (p : Position) (w : Round) (r : Report) (s : State) :
    (handleReport p w r s).pending = s.pending ∧
      (handleReport p w r s).line = s.line ∧
      (handleReport p w r s).time = s.time ∧
      (handleReport p w r s).freeChoices = s.freeChoices ∧
      (handleReport p w r s).nextBall = s.nextBall ∧
      (handleReport p w r s).loop.pairNumber = s.loop.pairNumber ∧
      (handleReport p w r s).loop.up = s.loop.up ∧
      (handleReport p w r s).loop.timer = s.loop.timer ∧
      (handleReport p w r s).loop.downTime = s.loop.downTime ∧
      (handleReport p w r s).loop.groups = s.loop.groups ∧
      (handleReport p w r s).loop.counters = s.loop.counters ∧
      (handleReport p w r s).loop.out = s.loop.out := by
  unfold handleReport
  (repeat' split) <;> simp

@[simp] theorem arriveReport_frame (p : Position) (r : Report) (s : State) :
    (arriveReport p r s).pending = s.pending ∧
      (arriveReport p r s).line = s.line ∧
      (arriveReport p r s).time = s.time ∧
      (arriveReport p r s).freeChoices = s.freeChoices ∧
      (arriveReport p r s).nextBall = s.nextBall ∧
      (arriveReport p r s).loop.pairNumber = s.loop.pairNumber ∧
      (arriveReport p r s).loop.up = s.loop.up ∧
      (arriveReport p r s).loop.timer = s.loop.timer ∧
      (arriveReport p r s).loop.downTime = s.loop.downTime ∧
      (arriveReport p r s).loop.groups = s.loop.groups ∧
      (arriveReport p r s).loop.counters = s.loop.counters ∧
      (arriveReport p r s).loop.out = s.loop.out := by
  unfold arriveReport
  (repeat' split) <;> simp

/-! ### Machine/LineUnit.lean -/

@[simp] theorem startStuck_frame (l : InputLine) (t : Nat) (s : State) :
    (startStuck l t s).pending = s.pending ∧
      (startStuck l t s).loop = s.loop ∧
      (startStuck l t s).command = s.command ∧
      (startStuck l t s).link = s.link ∧
      (startStuck l t s).seqs = s.seqs ∧
      (startStuck l t s).transit = s.transit ∧
      (startStuck l t s).roster = s.roster ∧
      (startStuck l t s).score = s.score ∧
      (startStuck l t s).account = s.account ∧
      (startStuck l t s).time = s.time ∧
      (startStuck l t s).freeChoices = s.freeChoices ∧
      (startStuck l t s).nextBall = s.nextBall := by
  unfold startStuck
  (repeat' split) <;> simp

@[simp] theorem leaveStuck_frame (l : InputLine) (s : State) :
    (leaveStuck l s).pending = s.pending ∧
      (leaveStuck l s).command = s.command ∧
      (leaveStuck l s).link = s.link ∧
      (leaveStuck l s).transit = s.transit ∧
      (leaveStuck l s).roster = s.roster ∧
      (leaveStuck l s).score = s.score ∧
      (leaveStuck l s).account = s.account ∧
      (leaveStuck l s).time = s.time ∧
      (leaveStuck l s).freeChoices = s.freeChoices ∧
      (leaveStuck l s).nextBall = s.nextBall ∧
      (leaveStuck l s).loop.pairNumber = s.loop.pairNumber ∧
      (leaveStuck l s).loop.up = s.loop.up ∧
      (leaveStuck l s).loop.timer = s.loop.timer ∧
      (leaveStuck l s).loop.downTime = s.loop.downTime ∧
      (leaveStuck l s).loop.groups = s.loop.groups ∧
      (leaveStuck l s).loop.replies = s.loop.replies ∧
      (leaveStuck l s).loop.counters = s.loop.counters ∧
      (leaveStuck l s).loop.out = s.loop.out := by
  unfold leaveStuck
  (repeat' split) <;> simp

@[simp] theorem endStuck_frame (l : InputLine) (s : State) :
    (endStuck l s).pending = s.pending ∧
      (endStuck l s).command = s.command ∧
      (endStuck l s).link = s.link ∧
      (endStuck l s).transit = s.transit ∧
      (endStuck l s).roster = s.roster ∧
      (endStuck l s).score = s.score ∧
      (endStuck l s).account = s.account ∧
      (endStuck l s).time = s.time ∧
      (endStuck l s).freeChoices = s.freeChoices ∧
      (endStuck l s).nextBall = s.nextBall ∧
      (endStuck l s).loop.pairNumber = s.loop.pairNumber ∧
      (endStuck l s).loop.up = s.loop.up ∧
      (endStuck l s).loop.timer = s.loop.timer ∧
      (endStuck l s).loop.downTime = s.loop.downTime ∧
      (endStuck l s).loop.groups = s.loop.groups ∧
      (endStuck l s).loop.replies = s.loop.replies ∧
      (endStuck l s).loop.counters = s.loop.counters ∧
      (endStuck l s).loop.out = s.loop.out := by
  unfold endStuck
  simp

@[simp] theorem lineStucks_frame (l : InputLine) (s : State) :
    (lineStucks l s).pending = s.pending ∧
      (lineStucks l s).command = s.command ∧
      (lineStucks l s).time = s.time ∧
      (lineStucks l s).freeChoices = s.freeChoices ∧
      (lineStucks l s).nextBall = s.nextBall ∧
      (lineStucks l s).loop.pairNumber = s.loop.pairNumber ∧
      (lineStucks l s).loop.up = s.loop.up ∧
      (lineStucks l s).loop.timer = s.loop.timer ∧
      (lineStucks l s).loop.downTime = s.loop.downTime ∧
      (lineStucks l s).loop.groups = s.loop.groups ∧
      (lineStucks l s).loop.replies = s.loop.replies ∧
      (lineStucks l s).loop.counters = s.loop.counters ∧
      (lineStucks l s).loop.out = s.loop.out := by
  unfold lineStucks
  (repeat' split) <;> simp

@[simp] theorem eitherOrder_seqFault_frame (c : FaultCode) (o : Option Byte) (s : State) :
    (eitherOrder (fun x => seqFault x c o) s).pending = s.pending ∧
      (eitherOrder (fun x => seqFault x c o) s).command = s.command ∧
      (eitherOrder (fun x => seqFault x c o) s).line = s.line ∧
      (eitherOrder (fun x => seqFault x c o) s).time = s.time ∧
      (eitherOrder (fun x => seqFault x c o) s).nextBall = s.nextBall ∧
      (eitherOrder (fun x => seqFault x c o) s).loop.pairNumber = s.loop.pairNumber ∧
      (eitherOrder (fun x => seqFault x c o) s).loop.up = s.loop.up ∧
      (eitherOrder (fun x => seqFault x c o) s).loop.timer = s.loop.timer ∧
      (eitherOrder (fun x => seqFault x c o) s).loop.downTime = s.loop.downTime ∧
      (eitherOrder (fun x => seqFault x c o) s).loop.groups = s.loop.groups ∧
      (eitherOrder (fun x => seqFault x c o) s).loop.replies = s.loop.replies ∧
      (eitherOrder (fun x => seqFault x c o) s).loop.counters = s.loop.counters ∧
      (eitherOrder (fun x => seqFault x c o) s).loop.out = s.loop.out :=
  ⟨eitherOrder_leaves (fun s => s.pending) _ (by simp) (fun _ _ => rfl) s,
    eitherOrder_leaves (fun s => s.command) _ (by simp) (fun _ _ => rfl) s,
    eitherOrder_leaves (fun s => s.line) _ (by simp) (fun _ _ => rfl) s,
    eitherOrder_leaves (fun s => s.time) _ (by simp) (fun _ _ => rfl) s,
    eitherOrder_leaves (fun s => s.nextBall) _ (by simp) (fun _ _ => rfl) s,
    eitherOrder_leaves (fun s => s.loop.pairNumber) _ (by simp) (fun _ _ => rfl) s,
    eitherOrder_leaves (fun s => s.loop.up) _ (by simp) (fun _ _ => rfl) s,
    eitherOrder_leaves (fun s => s.loop.timer) _ (by simp) (fun _ _ => rfl) s,
    eitherOrder_leaves (fun s => s.loop.downTime) _ (by simp) (fun _ _ => rfl) s,
    eitherOrder_leaves (fun s => s.loop.groups) _ (by simp) (fun _ _ => rfl) s,
    eitherOrder_leaves (fun s => s.loop.replies) _ (by simp) (fun _ _ => rfl) s,
    eitherOrder_leaves (fun s => s.loop.counters) _ (by simp) (fun _ _ => rfl) s,
    eitherOrder_leaves (fun s => s.loop.out) _ (by simp) (fun _ _ => rfl) s⟩

@[simp] theorem eitherOrder_estopCleared_frame (s : State) :
    (eitherOrder (estopCleared) s).pending = s.pending ∧
      (eitherOrder (estopCleared) s).command = s.command ∧
      (eitherOrder (estopCleared) s).line = s.line ∧
      (eitherOrder (estopCleared) s).time = s.time ∧
      (eitherOrder (estopCleared) s).nextBall = s.nextBall ∧
      (eitherOrder (estopCleared) s).loop.pairNumber = s.loop.pairNumber ∧
      (eitherOrder (estopCleared) s).loop.up = s.loop.up ∧
      (eitherOrder (estopCleared) s).loop.timer = s.loop.timer ∧
      (eitherOrder (estopCleared) s).loop.downTime = s.loop.downTime ∧
      (eitherOrder (estopCleared) s).loop.groups = s.loop.groups ∧
      (eitherOrder (estopCleared) s).loop.replies = s.loop.replies ∧
      (eitherOrder (estopCleared) s).loop.counters = s.loop.counters ∧
      (eitherOrder (estopCleared) s).loop.out = s.loop.out :=
  ⟨eitherOrder_leaves (fun s => s.pending) _ (by simp) (fun _ _ => rfl) s,
    eitherOrder_leaves (fun s => s.command) _ (by simp) (fun _ _ => rfl) s,
    eitherOrder_leaves (fun s => s.line) _ (by simp) (fun _ _ => rfl) s,
    eitherOrder_leaves (fun s => s.time) _ (by simp) (fun _ _ => rfl) s,
    eitherOrder_leaves (fun s => s.nextBall) _ (by simp) (fun _ _ => rfl) s,
    eitherOrder_leaves (fun s => s.loop.pairNumber) _ (by simp) (fun _ _ => rfl) s,
    eitherOrder_leaves (fun s => s.loop.up) _ (by simp) (fun _ _ => rfl) s,
    eitherOrder_leaves (fun s => s.loop.timer) _ (by simp) (fun _ _ => rfl) s,
    eitherOrder_leaves (fun s => s.loop.downTime) _ (by simp) (fun _ _ => rfl) s,
    eitherOrder_leaves (fun s => s.loop.groups) _ (by simp) (fun _ _ => rfl) s,
    eitherOrder_leaves (fun s => s.loop.replies) _ (by simp) (fun _ _ => rfl) s,
    eitherOrder_leaves (fun s => s.loop.counters) _ (by simp) (fun _ _ => rfl) s,
    eitherOrder_leaves (fun s => s.loop.out) _ (by simp) (fun _ _ => rfl) s⟩

@[simp] theorem setLatch_frame (s : State) :
    (setLatch s).pending = s.pending ∧
      (setLatch s).command = s.command ∧
      (setLatch s).time = s.time ∧
      (setLatch s).nextBall = s.nextBall ∧
      (setLatch s).loop.pairNumber = s.loop.pairNumber ∧
      (setLatch s).loop.up = s.loop.up ∧
      (setLatch s).loop.timer = s.loop.timer ∧
      (setLatch s).loop.downTime = s.loop.downTime ∧
      (setLatch s).loop.groups = s.loop.groups ∧
      (setLatch s).loop.replies = s.loop.replies ∧
      (setLatch s).loop.counters = s.loop.counters ∧
      (setLatch s).loop.out = s.loop.out := by
  unfold setLatch
  split <;> simp

@[simp] theorem clearLatch_frame (s : State) :
    (clearLatch s).1.pending = s.pending ∧
      (clearLatch s).1.command = s.command ∧
      (clearLatch s).1.time = s.time ∧
      (clearLatch s).1.nextBall = s.nextBall ∧
      (clearLatch s).1.loop.pairNumber = s.loop.pairNumber ∧
      (clearLatch s).1.loop.up = s.loop.up ∧
      (clearLatch s).1.loop.timer = s.loop.timer ∧
      (clearLatch s).1.loop.downTime = s.loop.downTime ∧
      (clearLatch s).1.loop.groups = s.loop.groups ∧
      (clearLatch s).1.loop.replies = s.loop.replies ∧
      (clearLatch s).1.loop.counters = s.loop.counters ∧
      (clearLatch s).1.loop.out = s.loop.out := by
  unfold clearLatch
  (repeat' split) <;> simp

@[simp] theorem firstAccepted_frame (l : InputLine) (v : Level) (s : State) :
    (firstAccepted l v s).pending = s.pending ∧
      (firstAccepted l v s).command = s.command ∧
      (firstAccepted l v s).time = s.time ∧
      (firstAccepted l v s).nextBall = s.nextBall ∧
      (firstAccepted l v s).loop.pairNumber = s.loop.pairNumber ∧
      (firstAccepted l v s).loop.up = s.loop.up ∧
      (firstAccepted l v s).loop.timer = s.loop.timer ∧
      (firstAccepted l v s).loop.downTime = s.loop.downTime ∧
      (firstAccepted l v s).loop.groups = s.loop.groups ∧
      (firstAccepted l v s).loop.replies = s.loop.replies ∧
      (firstAccepted l v s).loop.counters = s.loop.counters ∧
      (firstAccepted l v s).loop.out = s.loop.out := by
  unfold firstAccepted
  (repeat' split) <;> simp
  all_goals (repeat' split) <;> simp

@[simp] theorem inactiveEdge_frame (l : InputLine) (s : State) :
    (inactiveEdge l s).pending = s.pending ∧
      (inactiveEdge l s).command = s.command ∧
      (inactiveEdge l s).link = s.link ∧
      (inactiveEdge l s).transit = s.transit ∧
      (inactiveEdge l s).roster = s.roster ∧
      (inactiveEdge l s).score = s.score ∧
      (inactiveEdge l s).account = s.account ∧
      (inactiveEdge l s).time = s.time ∧
      (inactiveEdge l s).freeChoices = s.freeChoices ∧
      (inactiveEdge l s).nextBall = s.nextBall ∧
      (inactiveEdge l s).loop.pairNumber = s.loop.pairNumber ∧
      (inactiveEdge l s).loop.up = s.loop.up ∧
      (inactiveEdge l s).loop.timer = s.loop.timer ∧
      (inactiveEdge l s).loop.downTime = s.loop.downTime ∧
      (inactiveEdge l s).loop.groups = s.loop.groups ∧
      (inactiveEdge l s).loop.replies = s.loop.replies ∧
      (inactiveEdge l s).loop.counters = s.loop.counters ∧
      (inactiveEdge l s).loop.out = s.loop.out := by
  unfold inactiveEdge onEdge
  split
  · dsimp only; (repeat' split) <;> simp
  · simp

@[simp] theorem wakeAsserted_frame (s : State) :
    (wakeAsserted s).pending = s.pending ∧
      (wakeAsserted s).loop = s.loop ∧
      (wakeAsserted s).seqs = s.seqs ∧
      (wakeAsserted s).transit = s.transit ∧
      (wakeAsserted s).roster = s.roster ∧
      (wakeAsserted s).score = s.score ∧
      (wakeAsserted s).account = s.account ∧
      (wakeAsserted s).time = s.time ∧
      (wakeAsserted s).freeChoices = s.freeChoices ∧
      (wakeAsserted s).nextBall = s.nextBall := by
  unfold wakeAsserted
  (repeat' split) <;> simp

/-! ### Machine/Lanes.lean -/

@[simp] theorem installRates_frame (r : RateTable) (s : State) :
    (installRates r s).pending = s.pending ∧
      (installRates r s).loop = s.loop ∧
      (installRates r s).command = s.command ∧
      (installRates r s).link = s.link ∧
      (installRates r s).line = s.line ∧
      (installRates r s).seqs = s.seqs ∧
      (installRates r s).transit = s.transit ∧
      (installRates r s).roster = s.roster ∧
      (installRates r s).score = s.score ∧
      (installRates r s).time = s.time ∧
      (installRates r s).freeChoices = s.freeChoices ∧
      (installRates r s).nextBall = s.nextBall := by
  unfold installRates
  simp

@[simp] theorem holdBand_frame (i : Option Nat) (s : State) :
    (holdBand i s).1.pending = s.pending ∧
      (holdBand i s).1.loop = s.loop ∧
      (holdBand i s).1.command = s.command ∧
      (holdBand i s).1.link = s.link ∧
      (holdBand i s).1.line = s.line ∧
      (holdBand i s).1.seqs = s.seqs ∧
      (holdBand i s).1.transit = s.transit ∧
      (holdBand i s).1.roster = s.roster ∧
      (holdBand i s).1.score = s.score ∧
      (holdBand i s).1.time = s.time ∧
      (holdBand i s).1.freeChoices = s.freeChoices ∧
      (holdBand i s).1.nextBall = s.nextBall := by
  unfold holdBand
  (repeat' split) <;> simp

@[simp] theorem openAccount_frame (x : Lane) (m : Method) (p : Bool) (c : Option Nat) (w : Nat) (s : State) :
    (openAccount x m p c w s).pending = s.pending ∧
      (openAccount x m p c w s).loop = s.loop ∧
      (openAccount x m p c w s).command = s.command ∧
      (openAccount x m p c w s).line = s.line ∧
      (openAccount x m p c w s).seqs = s.seqs ∧
      (openAccount x m p c w s).transit = s.transit ∧
      (openAccount x m p c w s).roster = s.roster ∧
      (openAccount x m p c w s).score = s.score ∧
      (openAccount x m p c w s).time = s.time ∧
      (openAccount x m p c w s).freeChoices = s.freeChoices ∧
      (openAccount x m p c w s).nextBall = s.nextBall := by
  unfold openAccount
  simp

@[simp] theorem openLane_frame (x : Lane) (m : Method) (p : Bool) (c : Option Nat) (w : Nat) (s : State) :
    (openLane x m p c w s).1.pending = s.pending ∧
      (openLane x m p c w s).1.line = s.line ∧
      (openLane x m p c w s).1.time = s.time ∧
      (openLane x m p c w s).1.freeChoices = s.freeChoices ∧
      (openLane x m p c w s).1.nextBall = s.nextBall ∧
      (openLane x m p c w s).1.loop.pairNumber = s.loop.pairNumber ∧
      (openLane x m p c w s).1.loop.up = s.loop.up ∧
      (openLane x m p c w s).1.loop.timer = s.loop.timer ∧
      (openLane x m p c w s).1.loop.downTime = s.loop.downTime ∧
      (openLane x m p c w s).1.loop.groups = s.loop.groups ∧
      (openLane x m p c w s).1.loop.replies = s.loop.replies ∧
      (openLane x m p c w s).1.loop.counters = s.loop.counters ∧
      (openLane x m p c w s).1.loop.out = s.loop.out := by
  unfold openLane
  (repeat' split) <;> simp

@[simp] theorem forceClose_frame (x : Lane) (s : State) :
    (forceClose x s).pending = s.pending ∧
      (forceClose x s).command = s.command ∧
      (forceClose x s).line = s.line ∧
      (forceClose x s).time = s.time ∧
      (forceClose x s).freeChoices = s.freeChoices ∧
      (forceClose x s).nextBall = s.nextBall ∧
      (forceClose x s).loop.pairNumber = s.loop.pairNumber ∧
      (forceClose x s).loop.up = s.loop.up ∧
      (forceClose x s).loop.timer = s.loop.timer ∧
      (forceClose x s).loop.downTime = s.loop.downTime ∧
      (forceClose x s).loop.groups = s.loop.groups ∧
      (forceClose x s).loop.replies = s.loop.replies ∧
      (forceClose x s).loop.counters = s.loop.counters ∧
      (forceClose x s).loop.out = s.loop.out := by
  unfold forceClose
  (repeat' split) <;> simp

@[simp] theorem beginClose_frame (x : Lane) (s : State) :
    (beginClose x s).pending = s.pending ∧
      (beginClose x s).line = s.line ∧
      (beginClose x s).time = s.time ∧
      (beginClose x s).freeChoices = s.freeChoices ∧
      (beginClose x s).nextBall = s.nextBall ∧
      (beginClose x s).loop.pairNumber = s.loop.pairNumber ∧
      (beginClose x s).loop.up = s.loop.up ∧
      (beginClose x s).loop.timer = s.loop.timer ∧
      (beginClose x s).loop.downTime = s.loop.downTime ∧
      (beginClose x s).loop.groups = s.loop.groups ∧
      (beginClose x s).loop.counters = s.loop.counters ∧
      (beginClose x s).loop.out = s.loop.out := by
  unfold beginClose
  simp
  (repeat' split) <;> simp

@[simp] theorem closeExpires_frame (x : Lane) (s : State) :
    (closeExpires x s).pending = s.pending ∧
      (closeExpires x s).line = s.line ∧
      (closeExpires x s).time = s.time ∧
      (closeExpires x s).freeChoices = s.freeChoices ∧
      (closeExpires x s).nextBall = s.nextBall ∧
      (closeExpires x s).loop.pairNumber = s.loop.pairNumber ∧
      (closeExpires x s).loop.up = s.loop.up ∧
      (closeExpires x s).loop.timer = s.loop.timer ∧
      (closeExpires x s).loop.downTime = s.loop.downTime ∧
      (closeExpires x s).loop.groups = s.loop.groups ∧
      (closeExpires x s).loop.counters = s.loop.counters ∧
      (closeExpires x s).loop.out = s.loop.out := by
  unfold closeExpires
  (repeat' split) <;> simp

@[simp] theorem addCredit_frame (x : Lane) (a : BitVec 32) (s : State) :
    (addCredit x a s).1.pending = s.pending ∧
      (addCredit x a s).1.command = s.command ∧
      (addCredit x a s).1.line = s.line ∧
      (addCredit x a s).1.score = s.score ∧
      (addCredit x a s).1.time = s.time ∧
      (addCredit x a s).1.freeChoices = s.freeChoices ∧
      (addCredit x a s).1.nextBall = s.nextBall ∧
      (addCredit x a s).1.loop.pairNumber = s.loop.pairNumber ∧
      (addCredit x a s).1.loop.up = s.loop.up ∧
      (addCredit x a s).1.loop.timer = s.loop.timer ∧
      (addCredit x a s).1.loop.downTime = s.loop.downTime ∧
      (addCredit x a s).1.loop.groups = s.loop.groups ∧
      (addCredit x a s).1.loop.replies = s.loop.replies ∧
      (addCredit x a s).1.loop.counters = s.loop.counters ∧
      (addCredit x a s).1.loop.out = s.loop.out := by
  unfold addCredit
  (repeat' split) <;> simp
  all_goals (repeat' split) <;> simp

@[simp] theorem clearLaneFault_frame (x : Lane) (s : State) :
    (clearLaneFault x s).1.pending = s.pending ∧
      (clearLaneFault x s).1.command = s.command ∧
      (clearLaneFault x s).1.line = s.line ∧
      (clearLaneFault x s).1.time = s.time ∧
      (clearLaneFault x s).1.freeChoices = s.freeChoices ∧
      (clearLaneFault x s).1.nextBall = s.nextBall ∧
      (clearLaneFault x s).1.loop.pairNumber = s.loop.pairNumber ∧
      (clearLaneFault x s).1.loop.up = s.loop.up ∧
      (clearLaneFault x s).1.loop.timer = s.loop.timer ∧
      (clearLaneFault x s).1.loop.downTime = s.loop.downTime ∧
      (clearLaneFault x s).1.loop.groups = s.loop.groups ∧
      (clearLaneFault x s).1.loop.replies = s.loop.replies ∧
      (clearLaneFault x s).1.loop.counters = s.loop.counters ∧
      (clearLaneFault x s).1.loop.out = s.loop.out := by
  unfold clearLaneFault
  (repeat' split) <;> simp

@[simp] theorem clearReturn_frame (s : State) :
    (clearReturn s).1.pending = s.pending ∧
      (clearReturn s).1.command = s.command ∧
      (clearReturn s).1.line = s.line ∧
      (clearReturn s).1.roster = s.roster ∧
      (clearReturn s).1.score = s.score ∧
      (clearReturn s).1.account = s.account ∧
      (clearReturn s).1.time = s.time ∧
      (clearReturn s).1.freeChoices = s.freeChoices ∧
      (clearReturn s).1.nextBall = s.nextBall ∧
      (clearReturn s).1.loop.pairNumber = s.loop.pairNumber ∧
      (clearReturn s).1.loop.up = s.loop.up ∧
      (clearReturn s).1.loop.timer = s.loop.timer ∧
      (clearReturn s).1.loop.downTime = s.loop.downTime ∧
      (clearReturn s).1.loop.groups = s.loop.groups ∧
      (clearReturn s).1.loop.replies = s.loop.replies ∧
      (clearReturn s).1.loop.counters = s.loop.counters ∧
      (clearReturn s).1.loop.out = s.loop.out := by
  unfold clearReturn
  (repeat' split) <;> simp

@[simp] theorem setOverride_frame (b : Bool) (v : Option Bool) (s : State) :
    (setOverride b v s).pending = s.pending ∧
      (setOverride b v s).loop = s.loop ∧
      (setOverride b v s).command = s.command ∧
      (setOverride b v s).link = s.link ∧
      (setOverride b v s).seqs = s.seqs ∧
      (setOverride b v s).transit = s.transit ∧
      (setOverride b v s).roster = s.roster ∧
      (setOverride b v s).score = s.score ∧
      (setOverride b v s).account = s.account ∧
      (setOverride b v s).time = s.time ∧
      (setOverride b v s).freeChoices = s.freeChoices ∧
      (setOverride b v s).nextBall = s.nextBall := by
  unfold setOverride
  (repeat' split) <;> simp

end Sys2Proof.Machine
end

