-- ==== Sys2Proof/Laws/Ops.lean ====
section
/-! SUPPORT. What the shared operations can do, one lemma for each, so that later proofs cite it
instead of unfolding the operation. -/

namespace Sys2Proof.Machine

/-! ### Notices, replies and the command slot -/

/-- An offer is discarded in REPEATER, joins the tail, or sets the lost flag (R2, R33). -/
theorem offer_spec (n : NoticeBody) (s : State) :
    (s.repeater = true ∧ offer n s = s) ∨
    (s.repeater = false ∧ s.loop.notices.length < 16 ∧
      offer n s = s.modLoop fun l => { l with notices := l.notices ++ [⟨n, s.now⟩] }) ∨
    (s.repeater = false ∧ 16 ≤ s.loop.notices.length ∧
      offer n s = s.modLoop fun l => { l with noticesLost := true }) := by
  unfold offer
  split
  · exact .inl ⟨‹_›, rfl⟩
  · split
    · exact .inr (.inl ⟨by simpa using ‹¬s.repeater = true›, ‹_›, rfl⟩)
    · exact .inr (.inr ⟨by simpa using ‹¬s.repeater = true›, by omega, rfl⟩)

/-- An offer keeps the notice queue within its places (R33). -/
theorem offer_notices_le (n : NoticeBody) (s : State) (h : s.loop.notices.length ≤ 16) :
    (offer n s).loop.notices.length ≤ 16 := by
  rcases offer_spec n s with ⟨-, e⟩ | ⟨-, l, e⟩ | ⟨-, -, e⟩ <;> rw [e]
  · exact h
  · simp; omega
  · exact h

/-- REPEATER depends on the pair number alone (R2). -/
theorem repeater_congr {s t : State} (h : t.loop.pairNumber = s.loop.pairNumber) :
    t.repeater = s.repeater := by simp [State.repeater, h]

/-- The outcome of a group command is a notice, unless it is DONE; of an individual one, a reply at
the tail (R21, R24). -/
theorem answer_spec (g : Bool) (c q : Byte) (st : Status) (b : List Byte) (s : State) :
    (g = true ∧ st = .done ∧ answer g c q st b s = s) ∨
    (g = true ∧ st ≠ .done ∧ answer g c q st b s = offer (.commandRefused false c q st) s) ∨
    (g = false ∧ answer g c q st b s =
      s.modLoop fun l => { l with replies := l.replies ++ [⟨q, st, c :: st.code :: b⟩] }) := by
  cases g with
  | true =>
    by_cases h : st = .done
    · exact .inl ⟨rfl, h, by simp [answer, h]⟩
    · exact .inr (.inl ⟨rfl, h, by simp [answer, h]⟩)
  | false => exact .inr (.inr ⟨rfl, rfl⟩)

/-- Completion frees the slot and gives the outcome of the command that held it (R22). -/
theorem completeDeferred_spec (st : Status) (b : List Byte) (s : State) :
    (s.command.slot = none ∧ completeDeferred st b s = s) ∨
    ∃ d, s.command.slot = some d ∧
      completeDeferred st b s = setSlot none (answer d.group d.code d.sequence st b s) := by
  unfold completeDeferred
  split
  · exact .inr ⟨_, ‹_›, rfl⟩
  · exact .inl ⟨‹_›, rfl⟩

/-- The four cases of R19, and REPEATER before them (R2). -/
theorem handCommand_spec (h : CommandHead) (code : Byte) (act : State → State) (s : State) :
    ((s.repeater = true ∨ h.group = true ∧ isRead code = true) ∧ handCommand h code act s = s) ∨
    (h.group = false ∧ freeReplies s = 0 ∧
      handCommand h code act s = count (fun c => { c with dropped := bump c.dropped }) s) ∨
    (s.command.slot.isSome = true ∧ code ≠ 1 ∧
      handCommand h code act s = answer h.group code h.sequence .busy [] s) ∨
    (s.repeater = false ∧ (h.group = false → 0 < freeReplies s) ∧
      (s.command.slot = none ∨ code = 1) ∧ handCommand h code act s = act s) := by
  unfold handCommand
  split
  · exact .inl ⟨.inl ‹_›, rfl⟩
  · split
    · exact .inl ⟨.inr ‹_›, rfl⟩
    · split
      · rename_i c; exact .inr (.inl ⟨c.1, c.2, rfl⟩)
      · split
        · rename_i c; exact .inr (.inr (.inl ⟨c.1, c.2, rfl⟩))
        · rename_i r _ f b
          refine .inr (.inr (.inr ⟨by simpa using r, fun g => ?_, ?_, rfl⟩))
          · simp only [g, true_and] at f; omega
          · by_cases e : code = 1
            · exact .inr e
            · left
              cases hs : s.command.slot with
              | none => rfl
              | some d => exact absurd ⟨by simp [hs], e⟩ b

/-- A command that the part takes is acted on (R19, last row). -/
theorem handCommand_takes {s : State} {h : CommandHead} (t : s.Takes h) (code : Byte)
    (act : State → State) : handCommand h code act s = act s := by
  obtain ⟨r, g, f, e⟩ := t
  have : freeReplies s ≠ 0 := by omega
  simp [handCommand, r, g, e, this]

/-! ### Two lanes -/

/-- One event for both lanes is handled A then B or B then A, after one free choice. -/
theorem eitherOrder_spec (f : Lane → State → State) (s : State) :
    eitherOrder f s = f .B (f .A { s with freeChoices := s.freeChoices + 1 }) ∨
      eitherOrder f s = f .A (f .B { s with freeChoices := s.freeChoices + 1 }) := by
  unfold eitherOrder
  dsimp only
  split
  · exact .inl rfl
  · exact .inr rfl

/-! ### The pit link -/

/-- A posting that is not taken leaves nothing (R42). -/
theorem postOrder_eq_none {p : Position} {o : Order} {s : State} :
    postOrder p o s = none ↔ (s.station p).state ≠ .ready ∨ (s.station p).slot ≠ none := by
  unfold postOrder
  split <;> simp_all [imp_iff_not_or]

/-- What the service of a console can do (R50, R53): nothing, post the waiting answer, or post the
head of the dirty list. -/
theorem serviceConsole_spec (x : Lane) (s : State) :
    serviceConsole x s = s ∨
    (∃ a t, (s.station (.con x)).answer = some a ∧
      postOrder (.con x) (.answer a.tag a.kind a.status) s = some t ∧ serviceConsole x s = t) ∨
    ∃ i rest t, (s.station (.con x)).answer = none ∧ s.link.dirty.get x = i :: rest ∧
      postOrder (.con x) (.display i (displayContent i s)) s = some t ∧
      serviceConsole x s = t.modLink fun l => { l with dirty := l.dirty.set x rest } := by
  unfold serviceConsole
  split
  · rename_i a ha
    cases h : postOrder (.con x) (.answer a.tag a.kind a.status) s with
    | none => exact .inl rfl
    | some t => exact .inr (.inl ⟨a, t, ha, h, rfl⟩)
  · rename_i ha
    split
    · exact .inl rfl
    · rename_i i rest hd
      split
      · rename_i t ht; exact .inr (.inr ⟨i, rest, t, ha, hd, ht, rfl⟩)
      · exact .inl rfl

/-- The end of an event leaves everything but the pit link and the Line Unit. -/
@[simp] theorem finish_frame (s : State) :
    (finish s).pending = s.pending ∧ (finish s).loop = s.loop ∧ (finish s).command = s.command ∧
      (finish s).seqs = s.seqs ∧ (finish s).transit = s.transit ∧ (finish s).roster = s.roster ∧
      (finish s).score = s.score ∧ (finish s).account = s.account ∧ (finish s).time = s.time ∧
      (finish s).freeChoices = s.freeChoices ∧ (finish s).nextBall = s.nextBall := by
  unfold finish
  simp

/-- The quiet minimum is over 200 ms after the quiet entry time, or where there is none (R57). -/
theorem quietMinimumOver_iff (s : State) :
    quietMinimumOver s = true ↔ ∀ e, s.link.quietEntry = some e → e + 200 ≤ s.now := by
  unfold quietMinimumOver
  split <;> simp [*]

@[simp] theorem Stations.map_get {α β : Type} (v : Stations α) (f : α → β) (p : Position) :
    (v.map f).get p = f (v.get p) := by
  rcases p with (_ | _) | _ | (_ | _) <;> rfl

/-- A round that starts has the next number and the pending quiet mark, restarts the round timer and
clears every query mark (R36). -/
theorem startRound_spec (s : State) :
    let t := startRound s
    t.link.state = .running ∧ t.link.nextRound = s.link.nextRound + 1 ∧
      t.link.round = some ⟨s.link.nextRound, s.link.quietPending, .pin .A, false⟩ ∧
      t.link.roundTimer = some (s.now + s.command.timing.roundPeriod) ∧
      ∀ p, t.station p = { s.station p with queryMark := false } := by
  have query : ∀ (marks : Stations Bool) (u : State), (carryQuery marks u).link = u.link := by simp
  refine ⟨?_, ?_, ?_, ?_, fun p => ?_⟩ <;>
    simp only [startRound, sendCell, State.station, State.modLink, query]
  exact Stations.map_get ..

/-- A wake is held, does nothing, or ends quiet (R55 to R57). -/
theorem wakeLink_wakes (s : State) : s.Wakes (wakeLink s) := by
  refine ⟨fun h => ?_, fun h => ?_⟩
  · unfold wakeLink
    cases hs : s.link.state
    · cases hq : s.link.quietPending <;> simp [hq, hs, State.modLink]
    · cases hq : s.link.quietPending <;> simp [hq, hs, State.modLink]
    · exact absurd hs h
  · let u := s.modLink fun l => { l with stations := l.stations.map Station.toJoining }
    have joined : ∀ p, u.station p = (s.station p).toJoining := Stations.map_get _ _
    have e : wakeLink s = if quietMinimumOver u then startRound u
        else u.modLink fun l => { l with state := .waking } := by
      simp only [wakeLink, h]; rfl
    obtain ⟨running, -, round, timer, stations⟩ := startRound_spec u
    rw [e]
    split
    · rename_i passed
      refine ⟨fun p => ?_, fun _ => ⟨running, round, timer⟩,
        fun early => absurd ((quietMinimumOver_iff u).1 passed) early⟩
      rw [stations, joined]
      exact ⟨rfl, rfl, rfl, rfl, rfl⟩
    · rename_i early
      refine ⟨fun p => ?_, fun passed => absurd ((quietMinimumOver_iff u).2 passed) early,
        fun _ => ⟨rfl, rfl⟩⟩
      rw [show (u.modLink fun l => { l with state := .waking }).station p = u.station p from rfl,
        joined]
      exact ⟨rfl, rfl, rfl, rfl, rfl⟩

/-! ### Dirty lists -/

/-- Marking puts the items into the list and keeps what stood there (R52). -/
theorem mem_foldl_mark (items list : List Item) (i : Item) :
    i ∈ items.foldl mark list ↔ i ∈ list ∨ i ∈ items := by
  induction items generalizing list with
  | nil => simp
  | cons a rest ih =>
    rw [List.foldl_cons, ih]
    unfold mark
    by_cases e : i = a <;> split <;> simp_all

/-- What a marking leaves in each dirty list (R153). -/
theorem mem_markBoth (items : List Item) (s : State) (y : Lane) (i : Item) :
    i ∈ (markBoth items s).link.dirty.get y ↔ i ∈ s.link.dirty.get y ∨ i ∈ items := by
  cases y <;> exact mem_foldl_mark ..

/-! ### States and clears of a lane -/

/-- An entry into a state changes the sequencer's state and nothing else of it, and writes the
lane's cell (R78). -/
theorem enterState_spec (x : Lane) (st : SeqState) (s : State) :
    (enterState x st s).seqs = s.seqs.set x { s.seq x with state := st } ∧
      (enterState x st s).station (.pin x) =
        { s.station (.pin x) with cell := some st.standing } ∧
      ∀ y, y ≠ x → (enterState x st s).station (.pin y) = s.station (.pin y) := by
  refine ⟨?_, ?_, fun y h => ?_⟩
  · cases x <;> rfl
  · cases x <;> rfl
  · cases x <;> cases y <;> first | exact absurd rfl h | rfl

/-- A clear takes a lane to PARKED, back to FAULT, or to the CLEAR order (R97, R99). -/
theorem clearFault_spec (x : Lane) (s : State) :
    let u := enterState x .recover (s.modSeq x fun q => { q with fault := none, clearStep := true })
    (s.ParksAtClear x ∧ clearFault x s = enterParked x u) ∨
    (∃ code, s.causeAtClear x = some code ∧ clearFault x s = enterFault x code none u) ∨
    (¬s.ParksAtClear x ∧ s.causeAtClear x = none ∧ clearFault x s = issueOrder x .clear u) := by
  intro u
  have line : u.line = s.line := (enterState_frame ..).2.2.2.1
  have q : u.seq x = { s.seq x with state := .recover, fault := none, clearStep := true } := by
    cases x <;> rfl
  have r : (u.station (.pin x)).state = (s.station (.pin x)).state := by cases x <;> rfl
  have e : clearFault x s =
      if u.line.estop = false ∧ (u.seq x).resume = some .park ∧
        (u.station (.pin x)).state ≠ .ready then enterParked x u
      else match standingCause x (u.seq x).clearStep u with
        | some (code, station) => enterFault x code station u
        | none => if (u.seq x).clearStep then issueOrder x .clear u else issueResume x u := rfl
  rw [e]
  simp only [standingCause, line, q, r, State.ParksAtClear, State.causeAtClear]
  by_cases latch : s.line.estop = true
  · simp [latch]
  · by_cases park : (s.seq x).resume = some .park ∧ (s.station (.pin x)).state ≠ .ready
    · exact .inl ⟨⟨by simpa using latch, park⟩, by simp [latch, park]⟩
    · refine .inr ?_
      simp only [latch, park]
      by_cases lost : (s.station (.pin x)).state = .lost
      · simp [lost]
      · cases stuck : (s.seq x).pitStuck <;> simp [lost]

/-! ### The arbiter and the close -/

/-- A fault of the sequencer is never lost but in R95's cases; what it always leaves is in
`seqFault_frame`. Here: a lane whose state is none of FAULT, PARKED, PARKING and RECOVER enters
FAULT (R94, R95). -/
theorem seqFault_enters (x : Lane) (c : FaultCode) (o : Option Byte) (s : State)
    (h : (s.seq x).state ≠ .fault ∧ (s.seq x).state ≠ .parked ∧ (s.seq x).state ≠ .parking ∧
      (s.seq x).state ≠ .recover) : seqFault x c o s = enterFault x c o s := by
  unfold seqFault
  split <;> simp_all

/-- The close watch completes a close at the moment the lane is clear, and does nothing else
(R120). -/
theorem checkClear_spec (x : Lane) (s : State) :
    ((s.laneTransit x).closeWatch = true ∧ laneClear x s.transit = true ∧
      checkClear x s = completeClose x s) ∨
    (¬((s.laneTransit x).closeWatch = true ∧ laneClear x s.transit = true) ∧
      checkClear x s = s) := by
  unfold checkClear
  split
  · rename_i c; exact .inl ⟨c.1, c.2, rfl⟩
  · exact .inr ⟨‹_›, rfl⟩

/-- A hold reason joins the set, and sends a READY lane to HELD (R79, R80). -/
theorem addHold_spec (x : Lane) (r : HoldReason) (s : State) :
    ((s.seq x).holds.has r = true ∧ addHold x r s = s) ∨
    ((s.seq x).holds.has r = false ∧
      let t := s.modSeq x fun q => { q with holds := q.holds.put r true }
      addHold x r s = if (t.seq x).state = .ready then enterHeld x t else t) := by
  unfold addHold
  split
  · exact .inl ⟨‹_›, rfl⟩
  · exact .inr ⟨by simpa using ‹¬(s.seq x).holds.has r = true›, rfl⟩

/-- A hold reason leaves the set, and the last one to leave sends a HELD lane to READY (R79,
R80). -/
theorem removeHold_spec (x : Lane) (r : HoldReason) (s : State) :
    ((s.seq x).holds.has r = false ∧ removeHold x r s = s) ∨
    ((s.seq x).holds.has r = true ∧
      let t := s.modSeq x fun q => { q with holds := q.holds.put r false }
      removeHold x r s =
        if (t.seq x).state = .held ∧ (t.seq x).holds = .empty then enterState x .ready t else t) := by
  unfold removeHold
  split
  · exact .inr ⟨‹_›, rfl⟩
  · exact .inl ⟨by simpa using ‹¬(s.seq x).holds.has r = true›, rfl⟩

/-! ### Input lines -/

/-- A line gives an acceptance exactly where `take` answers it (R61, R62; log entry 4). -/
theorem take_eq_some_iff (s : State) (l : InputLine) (kind : EdgeKind) (v : Level) (st : LineState)
    (t : Nat) :
    (s.line.lines.get l).take kind v s.now = some (st, t) ↔ s.Gives l kind v st t := by
  unfold State.Gives
  generalize s.line.lines.get l = line
  obtain ⟨accepted, run, runLevel, _ | ⟨⟨k, w, u⟩, rest⟩, stuckTimer, stuck⟩ := line
  · constructor
    · intro h
      cases kind <;> simp only [LineState.take, Option.ite_none_right_eq_some, decide_eq_true_eq] at h <;>
        obtain ⟨ha, ⟨⟩⟩ := h <;> exact .inr ⟨rfl, ha, rfl, rfl⟩
    · rintro (⟨_, _, ⟨⟩, _⟩ | ⟨-, ha, rfl, rfl⟩)
      cases kind <;> exact if_pos (decide_eq_true ha)
  · simp only [LineState.take]
    constructor
    · split
      · rename_i hk
        rintro ⟨⟩
        exact .inl ⟨w, rest, by rw [hk.1], hk.2, rfl⟩
      · rintro ⟨⟩
    · rintro (⟨_, _, e, hw, rfl⟩ | ⟨⟨⟩, _⟩)
      cases e
      rw [if_pos ⟨rfl, hw⟩]

/-- An edge is carried out with what its line gives, and is nothing where the line gives none
(R62). -/
theorem onEdge_spec (l : InputLine) (kind : EdgeKind) (k : Nat → State → State) (s : State) :
    (∃ st t, s.Gives l kind (edgeLevel (polarity l s) kind) st t ∧
      onEdge l kind k s = k t (s.modInput l fun _ => st)) ∨
    ((∀ st t, ¬s.Gives l kind (edgeLevel (polarity l s) kind) st t) ∧ onEdge l kind k s = s) := by
  unfold onEdge
  split
  · exact .inl ⟨_, _, (take_eq_some_iff ..).1 ‹_›, rfl⟩
  · rename_i h
    exact .inr ⟨fun st t g => by simp [(take_eq_some_iff ..).2 g] at h, rfl⟩

/-- A stuck line leaves its stuck state with LINE_FAULT, and PIT_x releases its lane; any other line
stays (R67). -/
theorem leaveStuck_spec (l : InputLine) (s : State) :
    ((s.line.lines.get l).stuck = false ∧ leaveStuck l s = s) ∨
    ((s.line.lines.get l).stuck = true ∧
      let t := offer (.lineFault l false) (s.modInput l fun st => { st with stuck := false })
      ((∀ x, l ≠ .pit x) ∧ leaveStuck l s = t ∨
        ∃ x, l = .pit x ∧ leaveStuck l s = t.modSeq x fun q => { q with pitStuck := false })) := by
  unfold leaveStuck
  split
  · refine .inr ⟨‹_›, ?_⟩
    cases l <;> simp
  · exact .inl ⟨by simpa using ‹¬(s.line.lines.get l).stuck = true›, rfl⟩

/-! ### Fouls -/

/-- A foul attribution changes the newest record, the scored-ball copy where the record is the
scored ball, and the foul indication, and nothing else (R74, R108, R109). -/
theorem foulNewest_spec (x : Lane) (b : BallRecord) (h : Bool) (s : State) :
    let l := s.laneTransit x
    let fouled := { l with
      inFlight := l.inFlight.dropLast ++ [{ b with foul := true }]
      copy := if h = true then l.copy.map (fun c => { c with foul := true }) else l.copy }
    let expiry := s.now + s.command.timing.foulLamp * 1000
    foulNewest x b h s = (s.modLane x fun _ => fouled).modLineUnit fun u =>
      { u with foulLamp := u.foulLamp.set x (some expiry) } := rfl

/-! ### The series sum -/

/-- A series sum that covers the old game total changes by the difference (R157, step 4). -/
theorem changeSeries_eq {sum old total : Nat} (h : old ≤ sum) (fits : sum - old + total ≤ 4294967295) :
    changeSeries sum old total = sum - old + total := by
  simp [changeSeries, raiseSeries, h, fits]

/-! ### Frames of a game -/

/-- A frame that has its score has ended, whatever a correction has made of its balls (R143). -/
@[simp] theorem ended_of_score (balls : List BallEntry) (v : Nat) (t : Option Nat) (n : Nat) :
    FrameRecord.ended ⟨balls, some v, t⟩ n = true := rfl

/-- A frame without a score has ended exactly by its balls (R147, R148). -/
@[simp] theorem ended_of_balls (balls : List BallEntry) (t : Option Nat) (n : Nat) :
    FrameRecord.ended ⟨balls, none, t⟩ n = frameEnded n balls := rfl

/-! ### The warm reset -/

/-- At the end of a warm reset every cell is invalid, and the rest of a position stays (R59). -/
@[simp] theorem invalidateDisplays_station (p : Position) (s : State) :
    (invalidateDisplays s).station p = { s.station p with cell := none } := by
  cases p with
  | pin x => cases x <;> rfl
  | ret => rfl
  | con x => cases x <;> rfl

/-- At the end of a warm reset every dirty list is empty (R59). -/
@[simp] theorem invalidateDisplays_dirty (s : State) :
    (invalidateDisplays s).link.dirty = .both [] := rfl

/-! ### The loop -/

/-- What a free blank becomes (R11). -/
theorem sendBlank_spec (blank : Frame) (s : State) :
    (∃ r rest, s.loop.replies = r :: rest ∧ sendBlank blank s =
      replyLeft (count (fun c => { c with repliesSent := bump c.repliesSent })
        (sendFrame (replyFrame r s) (s.modLoop fun l => { l with replies := rest })))) ∨
    (∃ n rest, s.loop.replies = [] ∧ s.loop.notices = n :: rest ∧ sendBlank blank s =
      count (fun c => { c with noticesSent := bump c.noticesSent })
        (sendFrame (noticeFrame n s)
          (s.modLoop fun l => { l with notices := rest, noticesLost := false }))) ∨
    (s.loop.replies = [] ∧ s.loop.notices = [] ∧ sendBlank blank s = sendFrame blank s) := by
  unfold sendBlank
  split
  · exact .inl ⟨_, _, ‹_›, rfl⟩
  · exact .inr (.inl ⟨_, _, ‹_›, ‹_›, rfl⟩)
  · exact .inr (.inr ⟨‹_›, ‹_›, rfl⟩)

/-- A frame is sent on, or, at span last, a fresh BLANK takes its place, before or after what the
frame makes the part do; before it where that is a warm reset (R5, R6, R9, R11, R18). -/
theorem passOn_spec (f : Frame) (resets : Bool) (act : State → State) (s : State) :
    let s' := { s with freeChoices := s.freeChoices + 1 }
    (f.spanLast.toNat ≠ s.loop.pairNumber.toNat ∧ passOn f resets act s = sendFrame f (act s)) ∨
    (f.spanLast.toNat = s.loop.pairNumber.toNat ∧ resets = false ∧
      passOn f resets act s = sendBlank (freshBlank s) (act s')) ∨
    (f.spanLast.toNat = s.loop.pairNumber.toNat ∧
      passOn f resets act s = act (sendBlank (freshBlank s) s')) := by
  unfold passOn
  split
  · dsimp only
    split
    · rename_i c
      exact .inr (.inl ⟨‹_›, by simpa using (Bool.and_eq_true_iff.1 c).1, rfl⟩)
    · exact .inr (.inr ⟨‹_›, rfl⟩)
  · exact .inl ⟨‹_›, rfl⟩

/-- Every row answers the end of an event. -/
theorem done_eq (s : State) : done s = .next (finish s) := rfl

end Sys2Proof.Machine
end

