-- ==== Sys2Proof/Laws/PerInstr.lean ====
section
/-! SUPPORT. The statement made of every row: a well-formed desk command carries a head that a
COMMAND frame can carry (R4). -/

namespace Sys2Proof.Laws

/-- A well-formed desk command has a well-formed head. -/
def Head.Statement (i : Instr) : Prop :=
  ∀ h c, i.wf = true → i.desk = some (h, c) → h.wf = true

theorem Head.powerOn (strap : BitVec 6) : Head.Statement (.powerOn strap) :=
  fun _ _ _ e => nomatch e

theorem Head.loopFrameArrival (frame : Frame) : Head.Statement (.loopFrameArrival frame) :=
  fun _ _ _ e => nomatch e

theorem Head.broadcastBandHold (index : Option Byte) : Head.Statement (.broadcastBandHold index) :=
  fun _ _ _ e => nomatch e

theorem Head.centreHold (set : Bool) : Head.Statement (.centreHold set) :=
  fun _ _ _ e => nomatch e

theorem Head.broadcastQuiet : Head.Statement .broadcastQuiet :=
  fun _ _ _ e => nomatch e

theorem Head.broadcastWake : Head.Statement .broadcastWake :=
  fun _ _ _ e => nomatch e

theorem Head.loopDown : Head.Statement .loopDown :=
  fun _ _ _ e => nomatch e

theorem Head.unknownCommand (head : CommandHead) (code : Byte) :
    Head.Statement (.unknownCommand head code) := by
  rintro _ _ w ⟨⟩; exact (Bool.and_eq_true_iff.mp w).1

theorem Head.statusRead (head : CommandHead) (clear : Byte) :
    Head.Statement (.statusRead head clear) := by
  rintro _ _ w ⟨⟩; exact w

theorem Head.accountRead (head : CommandHead) (lane : Byte) :
    Head.Statement (.accountRead head lane) := by
  rintro _ _ w ⟨⟩; exact w

theorem Head.settlementRead (head : CommandHead) (lane : Byte) :
    Head.Statement (.settlementRead head lane) := by
  rintro _ _ w ⟨⟩; exact w

theorem Head.rosterRead (head : CommandHead) :
    Head.Statement (.rosterRead head) := by
  rintro _ _ w ⟨⟩; exact w

theorem Head.scoreRead (head : CommandHead) (slot game : Byte) :
    Head.Statement (.scoreRead head slot game) := by
  rintro _ _ w ⟨⟩; exact w

theorem Head.stationRead (head : CommandHead) (position : Byte) :
    Head.Statement (.stationRead head position) := by
  rintro _ _ w ⟨⟩; exact w

theorem Head.transitRead (head : CommandHead) :
    Head.Statement (.transitRead head) := by
  rintro _ _ w ⟨⟩; exact w

theorem Head.stationQuery (head : CommandHead) (position : Byte) :
    Head.Statement (.stationQuery head position) := by
  rintro _ _ w ⟨⟩; exact w

theorem Head.tableLoadRates (head : CommandHead) (record : List Byte) :
    Head.Statement (.tableLoadRates head record) := by
  rintro _ _ w ⟨⟩; exact (Bool.and_eq_true_iff.mp w).1

theorem Head.tableLoadTiming (head : CommandHead) (record : List Byte) :
    Head.Statement (.tableLoadTiming head record) := by
  rintro _ _ w ⟨⟩; exact (Bool.and_eq_true_iff.mp w).1

theorem Head.tableLoadLines (head : CommandHead) (record : List Byte) :
    Head.Statement (.tableLoadLines head record) := by
  rintro _ _ w ⟨⟩; exact (Bool.and_eq_true_iff.mp w).1

theorem Head.tableLoadGroups (head : CommandHead) (record : List Byte) :
    Head.Statement (.tableLoadGroups head record) := by
  rintro _ _ w ⟨⟩; exact (Bool.and_eq_true_iff.mp w).1

theorem Head.sessionSet (head : CommandHead) (mode format limit crossStart : Byte) :
    Head.Statement (.sessionSet head mode format limit crossStart) := by
  rintro _ _ w ⟨⟩; exact w

theorem Head.sessionEnd (head : CommandHead) :
    Head.Statement (.sessionEnd head) := by
  rintro _ _ w ⟨⟩; exact w

theorem Head.certify (head : CommandHead) :
    Head.Statement (.certify head) := by
  rintro _ _ w ⟨⟩; exact w

theorem Head.laneOpen (head : CommandHead) (lane method practice : Byte) (credit warn : BitVec 32) :
    Head.Statement (.laneOpen head lane method practice credit warn) := by
  rintro _ _ w ⟨⟩; exact w

theorem Head.laneClose (head : CommandHead) (lane force : Byte) :
    Head.Statement (.laneClose head lane force) := by
  rintro _ _ w ⟨⟩; exact w

theorem Head.creditAdd (head : CommandHead) (lane : Byte) (amount : BitVec 32) :
    Head.Statement (.creditAdd head lane amount) := by
  rintro _ _ w ⟨⟩; exact w

theorem Head.rosterAdd (head : CommandHead) (slot target : Byte) :
    Head.Statement (.rosterAdd head slot target) := by
  rintro _ _ w ⟨⟩; exact w

theorem Head.rosterMove (head : CommandHead) (slot lane : Byte) :
    Head.Statement (.rosterMove head slot lane) := by
  rintro _ _ w ⟨⟩; exact w

theorem Head.rosterWithdraw (head : CommandHead) (slot : Byte) :
    Head.Statement (.rosterWithdraw head slot) := by
  rintro _ _ w ⟨⟩; exact w

theorem Head.skip (head : CommandHead) (lane : Byte) :
    Head.Statement (.skip head lane) := by
  rintro _ _ w ⟨⟩; exact w

theorem Head.scoreCorrect (head : CommandHead) (slot game frame ball pinfall : Byte) :
    Head.Statement (.scoreCorrect head slot game frame ball pinfall) := by
  rintro _ _ w ⟨⟩; exact w

theorem Head.hold (head : CommandHead) (lane action : Byte) :
    Head.Statement (.hold head lane action) := by
  rintro _ _ w ⟨⟩; exact w

theorem Head.faultClearLane (head : CommandHead) (lane : Lane) :
    Head.Statement (.faultClearLane head lane) := by
  rintro _ _ w ⟨⟩; exact w

theorem Head.faultClearReturn (head : CommandHead) :
    Head.Statement (.faultClearReturn head) := by
  rintro _ _ w ⟨⟩; exact w

theorem Head.faultClearEstop (head : CommandHead) :
    Head.Statement (.faultClearEstop head) := by
  rintro _ _ w ⟨⟩; exact w

theorem Head.callAck (head : CommandHead) (lane : Byte) :
    Head.Statement (.callAck head lane) := by
  rintro _ _ w ⟨⟩; exact w

theorem Head.override (head : CommandHead) (line value : Byte) :
    Head.Statement (.override head line value) := by
  rintro _ _ w ⟨⟩; exact w

theorem Head.bandHold (head : CommandHead) (action index : Byte) :
    Head.Statement (.bandHold head action index) := by
  rintro _ _ w ⟨⟩; exact w

theorem Head.pitRestartWarm (head : CommandHead) :
    Head.Statement (.pitRestartWarm head) := by
  rintro _ _ w ⟨⟩; exact w

theorem Head.pitRestartCold (head : CommandHead) :
    Head.Statement (.pitRestartCold head) := by
  rintro _ _ w ⟨⟩; exact w

theorem Head.pitQuiet (head : CommandHead) :
    Head.Statement (.pitQuiet head) := by
  rintro _ _ w ⟨⟩; exact w

theorem Head.pitWake (head : CommandHead) :
    Head.Statement (.pitWake head) := by
  rintro _ _ w ⟨⟩; exact w

theorem Head.reset (head : CommandHead) :
    Head.Statement (.reset head) := by
  rintro _ _ w ⟨⟩; exact w

theorem Head.warmReset : Head.Statement .warmReset :=
  fun _ _ _ e => nomatch e

theorem Head.roundStart : Head.Statement .roundStart :=
  fun _ _ _ e => nomatch e

theorem Head.wakeMinimum : Head.Statement .wakeMinimum :=
  fun _ _ _ e => nomatch e

theorem Head.reportArrival (position : Position) (report : Report) : Head.Statement (.reportArrival position report) :=
  fun _ _ _ e => nomatch e

theorem Head.reportWindowClose (position : Position) : Head.Statement (.reportWindowClose position) :=
  fun _ _ _ e => nomatch e

theorem Head.wakeLine : Head.Statement .wakeLine :=
  fun _ _ _ e => nomatch e

theorem Head.firstAcceptance (line : InputLine) (level : Level) : Head.Statement (.firstAcceptance line level) :=
  fun _ _ _ e => nomatch e

theorem Head.launch (lane : Lane) : Head.Statement (.launch lane) :=
  fun _ _ _ e => nomatch e

theorem Head.pitArrival (lane : Lane) : Head.Statement (.pitArrival lane) :=
  fun _ _ _ e => nomatch e

theorem Head.foulEdge (lane : Lane) : Head.Statement (.foulEdge lane) :=
  fun _ _ _ e => nomatch e

theorem Head.foulIndicationExpiry (lane : Lane) : Head.Statement (.foulIndicationExpiry lane) :=
  fun _ _ _ e => nomatch e

theorem Head.pendingFoulExpiry (lane : Lane) : Head.Statement (.pendingFoulExpiry lane) :=
  fun _ _ _ e => nomatch e

theorem Head.inactiveEdge (line : InputLine) : Head.Statement (.inactiveEdge line) :=
  fun _ _ _ e => nomatch e

theorem Head.lineStuck (line : InputLine) : Head.Statement (.lineStuck line) :=
  fun _ _ _ e => nomatch e

theorem Head.estopActiveEdge : Head.Statement .estopActiveEdge :=
  fun _ _ _ e => nomatch e

theorem Head.settleExpiry (lane : Lane) : Head.Statement (.settleExpiry lane) :=
  fun _ _ _ e => nomatch e

theorem Head.orderTimeout (lane : Lane) : Head.Statement (.orderTimeout lane) :=
  fun _ _ _ e => nomatch e

theorem Head.flightTimeout (lane : Lane) : Head.Statement (.flightTimeout lane) :=
  fun _ _ _ e => nomatch e

theorem Head.pitTimeout (lane : Lane) : Head.Statement (.pitTimeout lane) :=
  fun _ _ _ e => nomatch e

theorem Head.trackTimeout : Head.Statement .trackTimeout :=
  fun _ _ _ e => nomatch e

theorem Head.idleExpiry : Head.Statement .idleExpiry :=
  fun _ _ _ e => nomatch e

theorem Head.closeTimeout (lane : Lane) : Head.Statement (.closeTimeout lane) :=
  fun _ _ _ e => nomatch e

theorem Head.billingTick : Head.Statement .billingTick :=
  fun _ _ _ e => nomatch e

theorem Head.centreTimeStale : Head.Statement .centreTimeStale :=
  fun _ _ _ e => nomatch e

theorem Head.sampleTick (samples : Samples) : Head.Statement (.sampleTick samples) :=
  fun _ _ _ e => nomatch e

end Sys2Proof.Laws
end

