-- ==== Sys2Proof/Tests/Slice0.lean ====
section
/-! SUPPORT. The model's own tests: the checks of a command's form, states that meet the hypotheses
of the statements, and the manual's worked sequences, one step at a time. -/

namespace Sys2Proof.Tests

set_option Elab.async false

open Sys2Proof.Machine

/-! ### States and operands to test with -/

/-- The head of an individual command for pair 1. -/
def ind : CommandHead := ⟨1, 1, 60⟩

/-- The head of a group command. -/
def grp : CommandHead := ⟨1, 3, 0⟩

/-- What a command leaves; the state itself where it stops. -/
def after (c : Instr) (s : State) : State :=
  match exec c s with
  | .next t => t
  | _ => s

/-- The last reply's status and contents. -/
def lastReply (s : State) : Option (Status × List Byte) :=
  s.loop.replies.getLast?.map fun r => (r.status, r.body.drop 2)

/-- A line that stands at a level. -/
def line (v : Level) : LineState := { LineState.initial with accepted := some v }

/-- Every line inactive at the default polarities. -/
def idleLines : Lines LineState :=
  ⟨line .low, line .low, line .low, line .low, line .low, line .low, line .high⟩

/-- Second 1 after power-on: the loop is UP, every line inactive, the pair at rest. -/
def base : State :=
  { State.reset with
    loop := { State.reset.loop with up := true, timer := some 1050 }
    line := { State.reset.line with lines := idleLines, wake := line .high }
    time := ⟨1000, false, 60000⟩ }

/-- `base` at a later time. -/
def atMs (s : State) (ms : Nat) : State := { s with time := { s.time with ms := ms } }

/-- A station that is READY. -/
def readyStation : Station := { Station.initial with state := .ready }

/-- A pinsetter lane at rest in READY with a full rack. -/
def readySeq : Sequencer :=
  { Sequencer.initial with state := .ready, holds := .empty, standing := PinSet.full }

/-- A bowler's entry on a lane. -/
def entryOn (st : BowlerStatus) (x : Lane) : RosterEntry := ⟨st, none, x, 0, false, true, true⟩

/-- The rate table of the manual's worked case (section 9.7). -/
def rates : RateTable := ⟨30, 5, [⟨600, 450, 2400, 1200⟩, ⟨1080, 550, 3600, 1500⟩]⟩

/-- Open play on both lanes: open tabs under PER_TIME, slots 0 and 1 on lane A and slot 2 on lane
B, every station READY, both lanes READY. -/
def playing : State :=
  { base with
    link := { base.link with stations := .all readyStation }
    line := { base.line with outputs := ⟨true, false, .both .off, .off⟩ }
    seqs := .both readySeq
    roster :=
      { base.roster with
        entries := ((base.roster.entries.set 0 (some (entryOn .up .A))).set 1
          (some (entryOn .waiting .A))).set 2 (some (entryOn .up .B))
        queues := ⟨[0, 1], [2]⟩ }
    score := { base.score with
      bowlers := ((base.score.bowlers.set 0 (some .new)).set 1 (some .new)).set 2 (some .new) }
    account := { base.account with
      rates := rates, accounts := .both { Account.initial with state := .opened } } }

/-- A scored ball of slot 0 on lane A, launched 500 ms before second 1. -/
def ball : BallRecord := ⟨0, .A, some 500, some 0, true, false, false, none⟩

/-- `playing` with that ball in flight. -/
def rolling : State :=
  { playing with
    seqs := playing.seqs.set .A { readySeq with state := .ballOut, scored := some 0 }
    transit :=
      { playing.transit with
        seen := 1
        lanes := playing.transit.lanes.set .A
          { LaneTransit.initial with
            inFlight := [ball], flightTimer := .running 10500, copy := some ⟨some 0, false, false, none⟩ } }
    nextBall := 1 }

/-- `playing` with lane A in FAULT with a CYCLE_TIMEOUT. -/
def faulted : State :=
  { playing with
    seqs := playing.seqs.set .A
      { readySeq with state := .fault, fault := some ⟨.cycleTimeout, none⟩, resume := some .fullSet } }

/-- A frame of a kind with a span and a body, its check right. -/
def frame (kind first last : Byte) (body : List Byte) : Frame :=
  checked
    { kind := kind, spanFirst := first, spanLast := last, origin := 0, sequence := 60, flags := 0
      bodyLength := BitVec.ofNat 8 body.length, spare := 0, body := bodyOf body, check := 0 }

/-- A report of a pinsetter or the return. -/
def report (ready : Bool) (echo : Option Echo) (counter : BitVec 4) : Report :=
  ⟨ready, false, 0, echo, counter, 0, none⟩

/-- A state with one line replaced. -/
def withLine (s : State) (l : InputLine) (st : LineState) : State := s.modInput l fun _ => st

/-! ### The checks of a command's form -/

theorem test_wf_span : (Instr.certify ⟨2, 1, 0⟩).wf = false := by decide
theorem test_wf_pair_number : (Instr.certify ⟨1, 64, 0⟩).wf = false := by decide
theorem test_wf_known_code : (Instr.unknownCommand ind 29).wf = false := by decide
theorem test_wf_record : (Instr.tableLoadRates ind (List.replicate 53 0)).wf = false := by decide
theorem test_wf_pinsetter_request :
    (Instr.reportArrival (.pin .A) ⟨true, false, 0, none, 0, 0, some ⟨false, 2, 0, 0, 0, 0, 0⟩⟩).wf =
      false := by decide
theorem test_wf_pinsetter_occupancy :
    (Instr.reportArrival (.pin .A) ⟨true, false, 0, none, 0, 1, none⟩).wf = false := by decide
theorem test_wf_return_echo :
    (Instr.reportArrival .ret (report true (some ⟨false, .taken⟩) 0)).wf = false := by decide
theorem test_wf_console_counter :
    (Instr.reportArrival (.con .B) (report true none 1)).wf = false := by decide
theorem test_wf_stuck_estop : (Instr.lineStuck .estop).wf = false := by decide
theorem test_wf_accepts :
    (Instr.unknownCommand ind 30).wf = true ∧ (Instr.unknownCommand ind 0).wf = true ∧
      (Instr.tableLoadRates grp (List.replicate 52 0)).wf = true ∧
      (Instr.reportArrival .ret ⟨true, false, 0, none, 3, 10, none⟩).wf = true := by decide

/-- The opcode table gives no row any bits. -/
theorem test_decode : decodeTableWord 8 0 = none := rfl

/-! ### States that meet the hypotheses of the statements -/

theorem test_meets_step :
    { base with pending := [.trackTimeout, .idleExpiry] }.pending = .trackTimeout :: [.idleExpiry] ∧
      base.pending = [] := ⟨rfl, rfl⟩

theorem test_meets_event_end :
    ((after .idleExpiry playing).station (.con .A)).state = .ready ∧
      ((after .idleExpiry playing).station (.con .A)).slot = none := by decide +kernel

theorem test_meets_drivers : exec .idleExpiry playing = .next (after .idleExpiry playing) := rfl

/-- Both queues of a state in play hold something, a ball is on the way and both accounts are
open. -/
def busy : State :=
  { rolling with
    pending := [.idleExpiry]
    loop := { rolling.loop with
      replies := [⟨7, .done, [12, 0]⟩], notices := [⟨.estop, 900⟩] } }

theorem test_meets_queues : busy.QueuesFit ∧ step busy = .next (after .idleExpiry { busy with pending := [] }) :=
  ⟨by unfold State.QueuesFit; decide +kernel, rfl⟩

theorem test_meets_balance : busy.BallsBalance ∧ busy.TrackFits ∧ busy.MetersFit :=
  ⟨by unfold State.BallsBalance; decide +kernel, by unfold State.TrackFits; decide +kernel,
    ⟨by show 0 ≤ meterLimit; decide, by show 0 ≤ meterLimit; decide⟩⟩

/-- A state in which nothing waits for places. -/
theorem nobody_waits {s : State} (h : s.transit.waiters = []) : s.HeadWaits :=
  fun _ _ e => by rw [h] at e; cases e

/-- A state whose head of the waiter list asks for more than the free places. -/
theorem head_waits {s : State} {w : Waiter} (h : s.transit.waiters = [w])
    (f : freePlaces s.transit < w.count) : s.HeadWaits :=
  fun _ _ e => by rw [h] at e; cases e; exact .inr f

/-- `busy` with lane B waiting for two places, one of the track's eight free. -/
def waited : State :=
  { busy with transit := { busy.transit with
    waiters := [⟨.B, 2⟩], track := List.replicate 7 ⟨.B, 900⟩ } }

theorem test_meets_waits :
    waited.HeadWaits ∧ step waited = .next (after .idleExpiry { waited with pending := [] }) :=
  ⟨head_waits rfl (by decide +kernel), rfl⟩

theorem test_meets_rest : busy.LanesRestRight ∧ busy.CellsShow .A ∧ busy.CellsShow .B :=
  ⟨by unfold State.LanesRestRight Sequencer.RestsRight; decide +kernel,
    by unfold State.CellsShow; decide +kernel, by unfold State.CellsShow; decide +kernel⟩

/-- `busy` with slot 0 in frame 2, a strike waiting for its bonuses. -/
def struck : State :=
  busy.setBowler 0 (some
    ⟨[⟨[⟨10, 10, 10, ⟨true, false, false, false, false⟩, none, false, false⟩], none, none⟩], [⟨1, 2⟩], [],
      0⟩)

theorem test_meets_games :
    struck.GamesPlay ∧ step struck = .next (after .idleExpiry { struck with pending := [] }) := by
  refine ⟨fun k b h => ?_, rfl⟩
  have all : ∀ k : Slot, struck.bowler k = none ∨ struck.bowler k = some .new ∨
      struck.bowler k = struck.bowler 0 := by decide +kernel
  rcases all k with e | e | e <;> rw [e] at h <;> cases h
  · exact ⟨by decide, List.forall_mem_nil _, List.forall_mem_nil _⟩
  · refine ⟨by decide, by decide, fun w m => ?_⟩
    cases m with
    | head => exact ⟨by decide, by decide, by decide, _, rfl, .inr ⟨_, rfl, rfl⟩⟩
    | tail _ m => cases m

/-- The link is QUIET and a wake waits in the queue. -/
def quiet : State :=
  { base with
    pending := [.broadcastWake]
    link := { base.link with
      state := .quiet, quietEntry := some 800, round := none, roundTimer := none
      stations := .all { Station.initial with state := .quiet } } }

theorem test_meets_quiet :
    quiet.QuietClosed ∧ step quiet = .next (after .broadcastWake { quiet with pending := [] }) :=
  ⟨⟨fun _ => ⟨⟨rfl, rfl⟩, rfl⟩, fun h => (by cases h), fun _ h => (by cases h)⟩, rfl⟩

theorem test_meets_repeater : (State.powerOn 0).repeater = true := rfl

/-- The check does not cover its own bytes. -/
theorem frameBytes_check (f : Frame) (c : BitVec 16) :
    frameBytes { f with check := c } = frameBytes f := rfl

/-- A frame closed with its check is good. -/
theorem good_checked (f : Frame) : Good (checked f) := by
  unfold Good checked; rw [frameBytes_check f (crc16 (frameBytes f))]

/-- A frame whose check is off by one is not. -/
theorem not_good (f : Frame) : ¬Good { f with check := crc16 (frameBytes f) + 1 } := by
  unfold Good
  rw [frameBytes_check f (crc16 (frameBytes f) + 1)]
  generalize crc16 (frameBytes f) = c
  bv_omega

theorem good_frame (kind first last : Byte) (body : List Byte) : Good (frame kind first last body) :=
  good_checked _

theorem test_meets_bad_check : base.repeater = false ∧ base.loop.up = true ∧
    ¬Good { frame 0 0 0 [] with check := crc16 (frameBytes (frame 0 0 0 [])) + 1 } :=
  ⟨rfl, rfl, not_good _⟩

theorem test_meets_malformed :
    (Good (frame 6 0 0 []) ∧ 5 < (frame 6 0 0 []).kind.toNat) ∧
    (Good (frame 1 2 1 []) ∧ (frame 1 2 1 []).spanLast.toNat < (frame 1 2 1 []).spanFirst.toNat) ∧
    (Good (frame 4 1 64 []) ∧ 63 < (frame 4 1 64 []).spanLast.toNat) ∧
    (Good (frame 5 1 1 (List.replicate 55 0)) ∧
      54 < (frame 5 1 1 (List.replicate 55 0)).bodyLength.toNat) :=
  ⟨⟨good_frame .., by decide⟩, ⟨good_frame .., by decide⟩, ⟨good_frame .., by decide⟩,
    ⟨good_frame .., by decide⟩⟩

theorem test_meets_good : base.Hears ∧ Good (frame 0 0 0 []) ∧ Good (frame 2 0 0 [1]) ∧
    Good (frame 3 0 0 [1]) ∧ (frame 0 0 0 []).kind = 0 ∧ (frame 2 0 0 [1]).kind = 2 ∧
    (frame 3 0 0 [1]).kind = 3 ∧ (State.reset.repeater = false ∧ State.reset.loop.up = false) :=
  ⟨⟨rfl, rfl⟩, good_frame .., good_frame .., good_frame .., rfl, rfl, rfl, rfl, rfl⟩

theorem test_meets_blank : busy.Hears ∧ Good (frame 0 0 0 []) ∧
    ∀ d, busy.command.slot = some d → ∀ n, d.work ≠ .resetting n :=
  ⟨⟨rfl, rfl⟩, good_frame .., fun _ h => nomatch h⟩

/-- One frame for each side of R5: before the span, past it, in it, and at its last pair; and a
group RESET at its last pair. -/
theorem test_meets_span : base.Hears ∧ base.loop.pairNumber.toNat = 1 ∧
    ((frame 1 2 3 [12]).spanFirst = 2 ∧ Good (frame 1 2 3 [12])) ∧
    ((frame 1 0 0 [12]).spanLast = 0 ∧ Good (frame 1 0 0 [12])) ∧
    ((frame 1 1 2 [12]).spanFirst = 1 ∧ (frame 1 1 2 [12]).spanLast = 2 ∧ Good (frame 1 1 2 [12])) ∧
    ((frame 1 1 1 [12]).spanLast = 1 ∧ Good (frame 1 1 1 [12])) ∧
    (frame 1 1 63 (List.replicate 54 12)).bodyLength = 54 ∧
    ((frame 1 0 1 [28]).spanFirst.toNat < 1 ∧ (frame 1 0 1 [28]).spanLast = 1 ∧
      frameBody (frame 1 0 1 [28]) = [28] ∧ Good (frame 1 0 1 [28]) ∧ base.command.slot = none) :=
  ⟨⟨rfl, rfl⟩, rfl, ⟨rfl, good_frame ..⟩, ⟨rfl, good_frame ..⟩, ⟨rfl, rfl, good_frame ..⟩,
    ⟨rfl, good_frame ..⟩, rfl, by decide, rfl, by decide +kernel, good_frame .., rfl⟩

/-- The bodies of the statements' broadcasts, read back from a frame: each topic with its arguments,
one of each kind that is malformed, and a group that the pair is not in. -/
theorem test_meets_broadcast :
    (∀ b ∈ ([[0, 1, 1, 9], [0, 1, 0, 255], [1, 2, 1, 0], [15, 2, 0, 0], [0, 3, 0, 0], [0, 4, 0, 0],
        [0, 5, 0, 0], [0, 1, 2, 0], [0, 2, 1, 1], [16, 3, 0, 0], [2, 3, 0, 0], [0, 3, 0]] :
        List (List Byte)),
      frameBody (frame 5 1 2 b) = b ∧ (frame 5 1 2 b).bodyLength.toNat ≤ 54) ∧
    (∀ b, Good (frame 5 0 0 b) ∧ Good (frame 5 1 2 b) ∧ Good (frame 5 1 1 b)) ∧
    base.Hears ∧ base.loop.pairNumber.toNat = 1 ∧ (frame 5 1 2 []).kind = 5 ∧
    (let s := { base with loop := { base.loop with groups := 0x8002 } }
     s.loop.groups.getLsbD (15 : Byte).toNat = true ∧ s.loop.groups.getLsbD (1 : Byte).toNat = true ∧
       s.loop.groups.getLsbD (2 : Byte).toNat = false) :=
  ⟨by decide +kernel, fun _ => ⟨good_frame .., good_frame .., good_frame ..⟩, ⟨rfl, rfl⟩, rfl, rfl,
    by decide⟩

theorem test_meets_body :
    (Instr.skip ind 1).desk = some (ind, 19) ∧ commandBody (.skip ind 1) = some [19, 1] := ⟨rfl, rfl⟩

/-- Bodies of the wrong length or with a table code, target or kind outside its list, each beside its
bound; and rows with an argument one past its bound. -/
theorem test_meets_off : base.Takes ind ∧ (base.repeater = false ∧ grp.group = true) ∧
    (∀ p ∈ [((19 : Byte), ([] : List Byte)), (19, [0, 0]), (4, [0]), (13, List.replicate 10 0), (9, []),
        (9, [0]), (9, [5]), (9, 2 :: List.replicate 27 0), (9, 1 :: 1 :: List.replicate 9 0),
        (9, 3 :: 2 :: List.replicate 14 0), (9, [4, 1]), (21, [4]), (25, [2])],
      1 ≤ p.1.toNat ∧ p.1.toNat ≤ 29 ∧ bodyOff p.1 p.2 = true) ∧
    (∀ p ∈ [((19 : Byte), ([1] : List Byte)), (4, []), (13, List.replicate 11 0),
        (9, 2 :: List.replicate 28 0), (9, 1 :: 1 :: List.replicate 10 0),
        (9, 3 :: 1 :: List.replicate 14 0), (9, [4, 1, 7]), (21, [3]), (25, [1])],
      bodyOff p.1 p.2 = false) ∧
    (∀ c ∈ [Instr.hold ind 2 0, .hold ind 0 2, .laneOpen ind 0 3 0 0 0, .scoreRead ind 12 0,
        .stationQuery ind 5, .sessionSet ind 2 0 0 0, .rosterAdd ind 0 4, .override ind 2 0],
      (c.desk.map (·.1)) = some ind ∧ argumentOff c = true) ∧
    (∀ c ∈ [Instr.hold ind 1 1, .laneOpen ind 1 2 1 0 0, .scoreRead ind 11 3, .stationQuery ind 4,
        .sessionSet ind 1 1 0 1, .rosterAdd ind 11 3, .override ind 1 2], argumentOff c = false) := by
  unfold State.Takes; decide +kernel

theorem test_meets_beacon : base.Hears ∧ Good (frame 4 1 2 (beBytes 2 1439 ++ beBytes 1 59)) ∧
    (frame 4 1 2 (beBytes 2 1439 ++ beBytes 1 59)).kind = 4 ∧
    (frame 4 1 2 (beBytes 2 1439 ++ beBytes 1 59)).bodyLength = 3 ∧
    frameBody (frame 4 1 2 (beBytes 2 1439 ++ beBytes 1 59)) = beBytes 2 1439 ++ beBytes 1 59 :=
  ⟨⟨rfl, rfl⟩, good_frame .., rfl, rfl, by decide +kernel⟩

/-- A beacon outside its span and at its last pair, and bodies past the last minute, past the last
second and of another length. -/
theorem test_meets_other_beacons : base.Hears ∧ base.loop.pairNumber.toNat = 1 ∧
    (∀ b, Good (frame 4 2 3 b) ∧ Good (frame 4 1 1 b) ∧ Good (frame 4 0 0 b)) ∧
    (frame 4 1 1 [5, 159, 59]).spanLast.toNat = 1 ∧
    (∀ b ∈ ([[5, 159, 59], [5, 160, 0], [0, 0, 60], [0, 0]] : List (List Byte)),
      frameBody (frame 4 1 1 b) = b) ∧
    (5 : Byte).toNat * 256 + (159 : Byte).toNat = 1439 :=
  ⟨⟨rfl, rfl⟩, rfl, fun _ => ⟨good_frame .., good_frame .., good_frame ..⟩, rfl, by decide +kernel,
    rfl⟩

theorem test_meets_loop_timer : (atMs base 1050).Hears ∧ (atMs base 1050).loop.timer = some 1050 ∧
    1050 ≤ (atMs base 1050).now := ⟨⟨rfl, rfl⟩, rfl, Nat.le_refl _⟩

/-- `base` with a close of lane A in the command slot. -/
def holding : State :=
  { base with command := { base.command with slot := some ⟨14, 59, false, .closing .A⟩ } }

/-- `base` with four replies waiting. -/
def fullQueue : State :=
  { base with loop := { base.loop with replies := List.replicate 4 ⟨7, .done, [12, 0]⟩ } }

theorem test_meets_first_decision :
    (Instr.statusRead grp 0).desk = some (grp, 1) ∧ (Instr.stationQuery grp 0).desk = some (grp, 8) ∧
    grp.group = true ∧ ind.group = false ∧ base.repeater = false ∧
    (fullQueue.repeater = false ∧ freeReplies fullQueue = 0) ∧
    (holding.repeater = false ∧ 0 < freeReplies holding ∧ holding.command.slot ≠ none) ∧
    ((Instr.certify grp).desk = some (grp, 12) ∧ (Instr.unknownCommand grp 0).desk = some (grp, 0)) ∧
    unknownCode 0 = true ∧ unknownCode 30 = true := by decide +kernel

theorem test_meets_takes : base.Takes ind ∧ playing.Takes ind ∧ rolling.Takes ind ∧ quiet.Takes ind := by
  unfold State.Takes; decide +kernel

/-- Broadcasts met while a deferred command holds the slot and its place, and with the reply queue
full. -/
theorem test_meets_topics_while_held :
    (∀ s ∈ [holding, fullQueue], s.repeater = false) ∧ holding.command.slot ≠ none ∧
      freeReplies fullQueue = 0 := by decide +kernel

/-- A group command and the individual one with its body and sequence: one that is answered at once, and
one that holds the slot. -/
theorem test_meets_group_commands :
    (∀ q ∈ [(Instr.hold ind 1 1, Instr.hold ⟨1, 3, 60⟩ 1 1),
        (.tableLoadTiming ind [9], .tableLoadTiming ⟨1, 3, 60⟩ [9]),
        (.pitRestartCold ind, .pitRestartCold ⟨1, 3, 60⟩)],
      q.1.desk.map (·.1) = some ind ∧ q.2.desk.map (·.1) = some ⟨1, 3, 60⟩ ∧
        q.1.desk.map (·.2) = q.2.desk.map (·.2) ∧ (commandBody q.1).isSome = true ∧
        commandBody q.1 = commandBody q.2 ∧
        (∀ code ∈ q.1.desk.map (·.2), 8 < code.toNat ∧ code ≠ 28)) ∧
    (⟨1, 3, 60⟩ : CommandHead).group = true ∧
    (after (.hold ind 1 1) base).command.slot = none ∧
    ((after (.pitRestartCold ind) base).command.slot).isSome = true := by decide +kernel

theorem test_meets_reads : 0 < freeReplies holding ∧ (scoreContents 0 0 playing).isSome = true ∧
    base.bowler 0 = none := by decide +kernel

theorem test_meets_byte : (1 : Byte) ≠ 2 := by decide

/-- The defaults of R28 as a record, and one with a settle time below its range. -/
def timingRecord (settle : Nat) : List Byte :=
  ([settle, 3000, 12000, 10000, 15000, 20000, 1500, 3, 120, 60, 1830, 5, 3, 10]).flatMap (beBytes 2)

theorem test_meets_timing : (timingRecord 500).length = 28 ∧ word16 (timingRecord 500) 0 = 500 ∧
    word16 (timingRecord 500) 13 = 10 ∧ word16 (timingRecord 499) 0 = 499 ∧
    (timingRecord 500).tail.length ≠ 28 := by decide +kernel

theorem test_meets_groups :
    (([1, 15] : List Byte).length = (2 : Byte).toNat ∧ ∀ i ∈ ([1, 15] : List Byte), 1 ≤ i.toNat ∧ i.toNat ≤ 15) ∧
    ¬∀ i ∈ ([16] : List Byte), 1 ≤ i.toNat ∧ i.toNat ≤ 15 := by decide

/-- The two bands of the worked case, as R184 lays them out. -/
def bandBytes : List Byte := [600, 450, 2400, 1200, 1080, 550, 3600, 1500].flatMap (beBytes 2)

theorem test_meets_rates : bandBytes.length = 8 * (2 : Byte).toNat ∧ bandArgs 2 bandBytes = rates.bands ∧
    (∀ b ∈ rates.bands, b.start ≤ 1439) ∧ rates.bands.Pairwise (fun a b => a.start < b.start) ∧
    ¬(240 < (240 : Byte).toNat ∨ (60 : Byte).toNat < 1 ∨ 60 < (60 : Byte).toNat) ∧
    240 < (241 : Byte).toNat ∧ bandBytes.length ≠ 8 * (1 : Byte).toNat := by decide +kernel

theorem test_meets_lines :
    (∀ l, 2 ≤ ((⟨2, 7, 3, 3, 3, 3, 5⟩ : Lines Byte).get l).toNat ∧
      ((⟨2, 7, 3, 3, 3, 3, 5⟩ : Lines Byte).get l).toNat ≤ 7) ∧
    ¬2 ≤ ((⟨1, 8, 3, 3, 3, 3, 5⟩ : Lines Byte).get (.foul .A)).toNat := by
  refine ⟨fun l => ?_, by decide⟩
  rcases l with x | x | x | _ <;> first | cases x <;> decide | decide

/-- A load that turns lane A's foul detection off under a stuck line, lane B's on under an active
one, PIT_A and ESTOP to their other polarity, the one inactive by it and the other active. -/
def turning : State :=
  let s := withLine (withLine playing (.foul .A) { line .high with stuck := true }) (.foul .B)
    (line .high)
  let s := withLine s (.pit .A) { line .high with stuck := true }
  { s with command := { s.command with lines :=
      { s.command.lines with foulOn := ⟨true, false⟩ } } }

theorem test_meets_turned : turning.Takes ind ∧
    (let pols : Lines Level := ⟨.high, .high, .low, .high, .low, .high, .high⟩
     let is := fun l => (turning.line.lines.get l).accepted
     (turning.command.lines.foulOn = ⟨true, false⟩ ∧ is (.foul .A) = some (pols.get (.foul .A)) ∧
       (turning.line.lines.get (.foul .A)).stuck = true ∧
       is (.foul .B) = some (pols.get (.foul .B))) ∧
     ((turning.command.lines.settings.get (.launch .A)).polarity ≠ pols.get (.launch .A) ∧
       is (.launch .A) = some (pols.get (.launch .A))) ∧
     ((turning.command.lines.settings.get (.pit .A)).polarity ≠ pols.get (.pit .A) ∧
       is (.pit .A) = some (pols.get (.pit .A)).flip ∧
       (turning.line.lines.get (.pit .A)).stuck = true) ∧
     ((turning.command.lines.settings.get .estop).polarity ≠ pols.get .estop ∧
       is .estop = some (pols.get .estop) ∧ turning.line.estop = false)) ∧
    turning.loop.notices.length ≤ 6 := by
  unfold State.Takes; decide +kernel

theorem test_meets_session : (20 < (21 : Byte).toNat ∧ (20 : Byte).toNat ≤ 20) ∧
    playing.entry 0 ≠ none ∧ (∀ k, base.entry k = none) ∧ base.BothClosed ∧ ¬playing.BothClosed := by
  unfold State.BothClosed; decide +kernel

theorem test_meets_bands : base.account.rates.bands.length = 0 ∧
    playing.account.rates.bands.length = 2 ∧ (1 : Byte).toNat < 2 ∧ ¬(2 : Byte).toNat < 2 := by
  decide +kernel

/-- `base` with the worked case's rate table. -/
def priced : State := { base with account := { base.account with rates := rates } }

theorem test_meets_open : priced.Takes ind ∧ (priced.acct .A).state = .closed ∧
    priced.account.rates.bands ≠ [] ∧ base.account.rates.bands = [] ∧
    (playing.acct .A).state ≠ .closed ∧ creditArg 9999999 = some 9999999 ∧
    (∀ a ∈ [0, 9999998], creditArg (BitVec.ofNat 32 a) = some a) ∧
    creditArg 0xFFFFFFFF = none := by
  unfold State.Takes; decide +kernel

/-- `priced` with lane A's pinsetter READY and its lane in a state of its own. -/
def opening (q : Sequencer) (r : Station) : State :=
  { priced with
    seqs := priced.seqs.set .A q
    link := { priced.link with stations := priced.link.stations.set (.pin .A) r } }

/-- The cases of an opening (R85): a PARKED lane at a pinsetter that is READY, with each standing cause
and with none, the track free for its pit or not, and at one that is not READY; and the other states. -/
theorem test_meets_opening :
    (∀ s ∈ [opening Sequencer.initial readyStation,
        { opening Sequencer.initial readyStation with line := { priced.line with estop := true } },
        opening { Sequencer.initial with pitStuck := true } readyStation,
        opening { Sequencer.initial with condition := 2 } readyStation],
      s.Takes ind ∧ (s.acct .A).state = .closed ∧ (s.seq .A).state = .parked ∧
        s.link.state ≠ .quiet ∧ (s.station (.pin .A)).state = .ready ∧ s.transit.waiters = []) ∧
    (let s := opening Sequencer.initial readyStation
     s.line.estop = false ∧ (s.seq .A).pitStuck = false ∧ (s.seq .A).condition = 0 ∧
       s.transit.fault = none ∧ (s.laneTransit .A).pitHold.length ≤ freePlaces s.transit ∧
       (let u := (s.modLane .A fun l => { l with pitHold := [ball] }).modTransit fun m =>
          { m with track := List.replicate 8 ⟨.B, 900⟩ }
        u.transit.fault = none ∧ freePlaces u.transit < (u.laneTransit .A).pitHold.length)) ∧
    (priced.seq .A).state = .parked ∧ (priced.station (.pin .A)).state ≠ .ready ∧
    (∀ st ∈ [SeqState.parking, .cycling, .starting, .fault, .recover],
      ((opening { readySeq with state := st } readyStation).seq .A).state = st) ∧
    ((opening { readySeq with state := .recover, order := some ⟨.park, true⟩ } readyStation).seq
      .A).order.map (·.order) = some .park := by
  unfold State.Takes; decide +kernel

/-- The head of a queue whose game needs no charge (it is charged, or holds a ball), and no head. -/
theorem test_meets_no_charge :
    (∀ k, (playing.roster.queues.get .A).head? = some k → playing.NoCharge k) ∧
    (∀ k, (priced.roster.queues.get .A).head? = some k → priced.NoCharge k) ∧
    priced.NoCharge 0 :=
  ⟨fun k h => by cases h; exact .inr fun e h => by cases h; rfl,
    fun k h => (by cases h), .inr fun e h => by cases h⟩

/-- R80's moments: a reason added to a READY lane with its pit empty, with a ball in it and places,
and with none; the last reason of a HELD lane and one of two; other states; and a reason that is
there. -/
theorem test_meets_hold : playing.Takes ind ∧ playing.HeadWaits ∧
    (let s := playing.modLane .A fun l => { l with pitHold := [ball] }
     (playing.seq .A).state = .ready ∧ (playing.seq .A).holds.desk = false ∧
       (playing.laneTransit .A).pitHold = [] ∧ (s.laneTransit .A).pitHold = [ball] ∧
       s.transit.waiters = [] ∧ s.transit.fault = none ∧ 1 ≤ freePlaces s.transit ∧
       (s.laneTransit .B).pitHold = [] ∧
       freePlaces { s.transit with track := List.replicate 8 ⟨.B, 9⟩ } < 1) ∧
    (∀ r ∈ [HoldReason.desk, .centre],
      (HoldSet.empty.put r true).has r = true ∧ (HoldSet.empty.put r true).put r false = .empty ∧
        ((HoldSet.empty.put r true).put .credit true).put r false ≠ .empty) := by
  refine ⟨by unfold State.Takes; decide +kernel, nobody_waits rfl, by decide +kernel⟩

/-- A lane A whose only ball is on the track, and no roster. -/
def emptying : State :=
  { rolling with
    roster := base.roster, score := base.score
    seqs := playing.seqs
    transit := { Transit.initial with
      track := [⟨.A, 900⟩], trackTimer := .running 20900, seen := 1 } }

theorem test_meets_close : rolling.Takes ind ∧ emptying.Takes ind ∧ (base.acct .A).state = .closed ∧
    (rolling.acct .A).state = .opened ∧ playInCover .A rolling = true ∧
    playInCover .A emptying = false ∧ laneClear .A emptying.transit = false ∧
    playInCover .B { emptying with seqs := playing.seqs.set .B { readySeq with state := .held } } = false ∧
    laneClear .B emptying.transit = true := by
  unfold State.Takes; decide +kernel

/-- A lane A whose last ball has left it, in a state of the sequencer, with the order that the state
has out and its pinsetter in a state of its own. -/
def leaving (st : SeqState) (r : StationState) : State :=
  let order : Option PinOrder := match st with
    | .scan => some .scan
    | .cycling => some .fullSet
    | .starting => some .fullSet
    | .parking => some .park
    | .recover => some .clear
    | _ => none
  { emptying with
    transit := { emptying.transit with track := [], trackTimer := .stopped }
    seqs := emptying.seqs.set .A { readySeq with
      state := st, order := order.map (⟨·, true⟩), orderTimer := order.map (fun _ => 4000)
      scored := if st = .scan ∨ st = .settle ∨ st = .ballOut then some 0 else none
      place := if st = .liftWait then some ⟨0, .fullSet⟩ else none }
    link := { emptying.link with
      stations := emptying.link.stations.set (.pin .A)
        { readyStation with state := r, slot := order.map fun o => ⟨.pin o, false, false⟩ } } }

/-- The states that a sequencer can be in. -/
def everyState : List SeqState :=
  [.parked, .starting, .ready, .held, .ballOut, .settle, .scan, .liftWait, .cycling, .fault,
    .recover, .parking]

theorem leaving_noneLeaves (st : SeqState) (r : StationState) : (leaving st r).NoneLeaves := by
  intro x k e hu _
  cases x <;> cases hu

/-- Every row of R100, at a pinsetter that takes the PARK and at one that does not. -/
theorem test_meets_park : ∀ st ∈ everyState, ∀ r ∈ [StationState.ready, .lost],
    let s := leaving st r
    (s.command.slot = none ∧ 0 < freeReplies s ∧ s.repeater = false) ∧
    (s.seq .A).state = st ∧ (s.acct .A).state = .opened ∧ playInCover .A s = false ∧
    laneClear .A s.transit = true ∧ (s.station (.pin .A)).state = r ∧
    (st = .ready ∨ st = .held ∨ st = .ballOut ∨ st = .settle ∨ st = .liftWait →
      (s.station (.pin .A)).slot = none) ∧
    (st = .scan → (s.seq .A).order = some ⟨.scan, true⟩) := by decide +kernel

theorem test_meets_settlement : (playing.acct .A).method = .perTime ∧
    0 < playing.account.rates.increment ∧
    (let s := playing.modAcct .A fun a => { a with method := .perGame, meter := 27000 }
     (s.acct .A).method ≠ .perTime ∧ 60 ∣ (s.acct .A).meter) := by decide +kernel

/-- `playing` with 31 minutes used on lane A, an increment of 30 minutes and a minimum. -/
def halfHours (minimum : Nat) : State :=
  let s := playing.modAcct .A fun a => { a with minutesBilled := 31 }
  { s with account := { s.account with rates := { rates with minimum := minimum, increment := 30 } } }

/-- R176 where the minutes used are at most the minimum: 31 minutes round up to 60, above a minimum
of 31 and below one of 90. -/
theorem test_minutes_round :
    (∀ n ∈ [31, 90], ((halfHours n).acct .A).method = .perTime ∧
      0 < (halfHours n).account.rates.increment ∧ ((halfHours n).acct .A).minutesBilled ≤ n) ∧
    (settlement .A (halfHours 31)).minutesBilled = 60 ∧
    (settlement .A (halfHours 90)).minutesBilled = 90 := by decide +kernel

/-- The sums of a PER_TIME settlement at their bounds: a sum that is the credit and one past it, on a
lane with credit and on an open tab. -/
theorem test_meets_bounds :
    let onTab := fun meter => playing.modAcct .A fun a => { a with minutesBilled := 30, meter := meter }
    let withCredit := fun c => (onTab 98400).modAcct .A fun a => { a with credit := some c }
    (∀ s ∈ [onTab 599999940, onTab 599999941, withCredit 1640, withCredit 1639],
      (s.acct .A).method = .perTime ∧ 0 < s.account.rates.increment ∧
        (settlement .A s).minutesBilled = 30) ∧
    ((599999940 ≤ 60 * 9999999) ∧ 60 * 9999999 < 599999941) ∧
    (98400 ≤ 60 * 1640 ∧ 60 * 1639 < 98400) := by decide +kernel

/-- `playing` with a credit on lane A. -/
def onCredit (c : Nat) : State := playing.modAcct .A fun a => { a with credit := some c }

theorem test_meets_credit : (onCredit 5000).Takes ind ∧ ((onCredit 5000).acct .A).credit = some 5000 ∧
    ((onCredit 5000).acct .A).state = .opened ∧ (playing.acct .A).credit = none ∧
    ¬9999999 < 5000 + (9994999 : BitVec 32).toNat ∧ 9999999 < 5000 + (9995000 : BitVec 32).toNat := by
  unfold State.Takes; decide +kernel

/-- `onCredit` with lane A LOCKED under a method, with a meter and a pending charge. -/
def lockedOn (c : Nat) (m : Method) (meter : Nat) (kind : Option ChargeKind) : State :=
  (onCredit c).modAcct .A fun a =>
    { a with state := .locked, method := m, meter := meter, pending := kind.map fun q => ⟨0, q⟩ }

/-- The unlock cases at their bounds: a meter of 60 cents and a credit that an amount of 1 brings
to 60 and to 61; a credit of 449 and 450 for a game of 450 cents, and of 1,199 and 1,200 for a
bowler. -/
theorem test_meets_unlocks :
    (∀ c ∈ [59, 60], (lockedOn c .perTime 3600 none).Takes ind ∧
      ((lockedOn c .perTime 3600 none).acct .A).state = .locked ∧
      ((lockedOn c .perTime 3600 none).acct .A).credit = some c ∧
      ((lockedOn c .perTime 3600 none).acct .A).method = .perTime) ∧
    ((60 * 60 ≤ 3600) ∧ 3600 < 61 * 60) ∧
    (∀ q ∈ [(448, ChargeKind.game), (449, .game), (1198, .bowler), (1199, .bowler)],
      let s := lockedOn q.1 .perGame 0 (some q.2)
      (s.acct .A).method ≠ .perTime ∧ (s.acct .A).pending = some ⟨0, q.2⟩ ∧
        (s.acct .A).credit = some q.1) ∧
    ((lockedOn 0 .perBowler 0 none).acct .A).pending = none ∧
    (let s := (onCredit 5000).modAcct .A fun a => { a with state := .closing, warn := 5002 }
     (s.acct .A).state = .closing ∧ (s.acct .A).warned = false ∧ 5001 - (s.acct .A).meter / 60 < 5002 ∧
       s.loop.notices.length ≤ 12) ∧
    (450 * 60 ≤ (449 + 1) * 60 - 0 ∧ ¬450 * 60 ≤ (448 + 1) * 60 - 0) := by
  unfold State.Takes; decide +kernel

/-- `playing` at a billing tick, under the ESTOP latch. -/
def stopped : State :=
  { atMs playing 60000 with line := { playing.line with estop := true } }

/-- `playing` at a billing tick with lane B CLOSED. -/
def oneLane : State :=
  { atMs playing 60000 with account := { playing.account with
      accounts := playing.account.accounts.set .B .initial } }

/-- Lane A in FAULT and lane B under the latch; a CLOSED lane B; and for lane A a LOCKED, a
CLOSING and an OPEN account under PER_TIME, the last an open tab, one whose credit the minute
uses up exactly and one that it does not, warned by it or not. -/
theorem test_meets_billing :
    (let s := atMs faulted 60000
     s.time.nextTick ≤ s.now ∧ (s.seq .A).state = .fault ∧ (s.acct .A).state ≠ .closed ∧
       s.line.estop = false ∧ (s.seq .B).state ≠ .fault) ∧
    (stopped.time.nextTick ≤ stopped.now ∧ stopped.line.estop = true ∧
      (stopped.acct .B).state ≠ .closed) ∧
    (oneLane.time.nextTick ≤ oneLane.now ∧ oneLane.line.estop = false ∧
      (oneLane.acct .B).state = .closed ∧ (oneLane.acct .A).state = .opened ∧
      (oneLane.acct .A).method = .perTime ∧ (oneLane.seq .A).state ≠ .fault ∧
      (oneLane.acct .A).credit = none) ∧
    (let s := oneLane.modAcct .A fun a => { a with state := .closing }
     (s.acct .A).state = .closing ∧ ((lockedOn 9 .perTime 540 none).acct .A).state = .locked) ∧
    (∀ c ∈ [40, 41], let s := atMs (onCredit c) 60000
      (s.acct .A).state = .opened ∧ (s.acct .A).credit = some c ∧ (s.acct .A).method = .perTime ∧
        (s.acct .A).warned = false ∧ s.repeater = false ∧ s.loop.notices.length ≤ 12) := by
  decide +kernel

/-- The minute that uses the credit up: 2,400 twice 60ths of a cent with the band held, 40 cents;
and the pending charges of a LOCKED account, covered at their bound and not. -/
theorem test_meets_billing_pending :
    (let s := { onCredit 40 with account := { (onCredit 40).account with bandHold := some 0 } }
     min ((s.acct .A).meter + (bandInForce s).hour) (40 * 60) = 40 * 60 ∧
       ¬min ((s.acct .A).meter + (bandInForce s).hour) (41 * 60) = 41 * 60) ∧
    (∀ q ∈ [(ChargeKind.game, 449, false), (.game, 450, true), (.bowler, 1199, false),
        (.bowler, 1200, true)],
      let s := lockedOn q.2.1 .perGame 0 (some q.1)
      let s := { s with account := { s.account with bandHold := some 0 } }
      (s.acct .A).covers (60 * match q.1 with
        | .game => (bandInForce s).game
        | .bowler => (bandInForce s).bowler) = q.2.2 ∧
      (s.acct .A).state = .locked ∧ (s.acct .A).pending = some ⟨0, q.1⟩ ∧
      (s.seq .A).state ≠ .fault ∧ s.line.estop = false) := by decide +kernel

/-- `base` as a CROSS session. -/
def cross : State :=
  { base with roster := { base.roster with session := { base.roster.session with mode := .cross } } }

theorem test_meets_add :
    (playing.Takes ind ∧ playing.roster.session.mode = .opened ∧ playing.entry 0 ≠ none ∧
      playing.entry 5 = none ∧ playing.roster.queues.get .A ≠ []) ∧
    (base.roster.session.mode = .opened ∧ (base.acct .A).state ≠ .opened) ∧
    (cross.Takes ind ∧ cross.roster.session.mode = .cross ∧ cross.entry 0 = none ∧
      cross.roster.inHandover .one = false ∧ (cross.acct (cross.roster.teamLane .one)).state ≠ .opened) := by
  unfold State.Takes; decide +kernel

/-- A CROSS session with team 1's slot 0 UP on lane A. -/
def crossPlay : State :=
  { cross with roster := { cross.roster with
      entries := cross.roster.entries.set 0 (some ⟨.up, some .one, .A, 0, false, true, true⟩)
      queues := ⟨[0], []⟩ } }

theorem test_meets_add_cross : crossPlay.Takes ind ∧ crossPlay.roster.session.mode = .cross ∧
    crossPlay.entry 0 ≠ none ∧ crossPlay.entry 1 = none ∧
    crossPlay.roster.inHandover .one = false ∧
    crossPlay.roster.queues.get (crossPlay.roster.teamLane .one) ≠ [] := by
  unfold State.Takes; decide +kernel

/-- The charge points of R140 on an empty queue: an open tab, and a credit that covers the price
of a game or a bowler exactly, and one that falls short by a cent. -/
theorem test_meets_charge_points :
    ∀ q ∈ [(Method.perGame, none, true), (.perGame, some 450, true), (.perGame, some 449, false),
        (.perBowler, some 1200, true), (.perBowler, some 1199, false)],
      let s := (playing.modAcct .A fun a => { a with method := q.1, credit := q.2.1 })
      let s := { s with
        account := { s.account with bandHold := some 0 }, roster := { base.roster with queues := .both [] } }
      s.Takes ind ∧ s.entry 5 = none ∧ s.roster.queues.get .A = [] ∧ (s.acct .A).state = .opened ∧
        (s.acct .A).method ≠ .perTime ∧ s.roster.session.mode = .opened ∧
        (s.acct .A).covers (60 * if decide ((s.acct .A).method = .perGame) = true then
          (bandInForce s).game else (bandInForce s).bowler) = q.2.2 := by
  unfold State.Takes; decide +kernel

/-- The same in a CROSS session, for team 1 on lane A with team 2 to come; and on a PER_TIME
account. -/
theorem test_meets_cross_charges :
    (∀ q ∈ [(Method.perGame, none, true), (.perGame, some 450, true), (.perGame, some 449, false),
        (.perBowler, some 1200, true), (.perBowler, some 1199, false)],
      let s := { cross with account := playing.account }
      let s := s.modAcct .A fun a => { a with method := q.1, credit := q.2.1 }
      let s := { s with account := { s.account with bandHold := some 0 } }
      s.Takes ind ∧ s.roster.session.mode = .cross ∧ s.entry 5 = none ∧
        s.roster.inHandover .one = false ∧ s.roster.teamLane .one = .A ∧
        s.roster.queues.get .A = [] ∧ (s.acct .A).state = .opened ∧
        (s.acct .A).method ≠ .perTime ∧
        (s.acct .A).covers (60 * if decide ((s.acct .A).method = .perGame) = true then
          (bandInForce s).game else (bandInForce s).bowler) = q.2.2) ∧
    (let s := { cross with account := playing.account }
     s.roster.queues.get .A = [] ∧ (s.acct .A).method = .perTime) := by
  unfold State.Takes; decide +kernel

/-- A CROSS session with team 1 in HANDOVER on lane A and team 2's slot 2 UP on lane B. -/
def handingOver : State :=
  { cross with
    seqs := cross.seqs.set .A
      { readySeq with state := .held, holds := { HoldSet.empty with handover := true } }
    roster := { cross.roster with
      entries := (cross.roster.entries.set 0 (some ⟨.handover, some .one, .A, 0, false, true, true⟩)).set
        2 (some ⟨.up, some .two, .B, 0, false, true, true⟩)
      queues := ⟨[], [2]⟩, handover1 := [0] } }

theorem test_meets_handover : handingOver.Takes ind ∧ handingOver.roster.session.mode = .cross ∧
    handingOver.entry 1 = none ∧ handingOver.roster.inHandover .one = true ∧
    handingOver.roster.queues.get (handingOver.roster.teamLane Team.one.other) ≠ [] := by
  unfold State.Takes; decide +kernel

/-- `playing` with slot 1's game not charged yet. -/
def uncharged : State :=
  playing.modEntry 1 fun e => { e with gameCharged := false }

theorem test_meets_move : uncharged.Takes ind ∧ playing.entry 5 = none ∧
    uncharged.entry 1 = some { entryOn .waiting .A with gameCharged := false } ∧
    (uncharged.roster.queues.get .B).filter (· ≠ 1) ≠ [] ∧ uncharged.roster.session.mode = .opened := by
  unfold State.Takes; decide +kernel

/-- A WAITING bowler who moves to an empty queue, leaving another behind him and leaving none. -/
theorem test_meets_move_up : ∀ stays ∈ [[(0 : Slot)], []],
    let s := { uncharged with roster := { uncharged.roster with queues := ⟨stays ++ [1], []⟩ } }
    s.Takes ind ∧ s.roster.session.mode = .opened ∧
      (s.entry 1).map (fun e => (e.status, e.lane, e.gameCharged)) =
        some (.waiting, Lane.B.other, false) ∧
      (s.roster.queues.get .B).filter (· ≠ 1) = [] ∧ (s.acct .B).method = .perTime ∧
      (s.roster.queues.get Lane.B.other).filter (· ≠ 1) = stays := by
  unfold State.Takes; decide +kernel

/-- `playing` with slot `k` UP without a ball, his game not charged yet and its charge pending on
lane A's LOCKED account, on lane A's queue before `rest`. -/
def upIdle (k : Slot) (rest other : List Slot) : State :=
  let s := (playing.modEntry 0 fun e => { e with status := .waiting }).modEntry k fun e =>
    { e with status := .up, lane := .A, gameCharged := false }
  let s := s.modAcct .A fun a => { a with state := .locked, pending := some ⟨k, .game⟩ }
  { s with roster := { s.roster with queues := ⟨k :: rest, other⟩ } }

/-- An UP bowler without a ball who moves to a queue with bowlers and to one without, or withdraws,
with another behind him and with none. -/
theorem test_meets_up_leaves :
    (∀ q ∈ [([1], [2]), ([], [2]), (([1] : List Slot), ([] : List Slot))],
      let s := upIdle 0 q.1 q.2
      s.Takes ind ∧ (s.entry 0).map (fun e => (e.status, e.lane, e.pendingWithdraw)) =
          some (.up, .A, false) ∧
        (s.entry 0).map (·.gameCharged) = some false ∧ ballInFrame .A 0 s = false ∧
        s.roster.queues.get .A = 0 :: q.1 ∧ (0 : Slot) ∉ q.1 ∧ s.roster.handover1 = [] ∧
        s.roster.handover2 = [] ∧ s.roster.session.mode = .opened ∧
        (s.acct .A).pending = some ⟨0, .game⟩ ∧ (s.acct .A).state = .locked ∧
        (s.acct .B).method = .perTime ∧
        ((s.roster.queues.get .B).filter (· ≠ 0) = q.2)) ∧
    (∀ j, ([1] : List Slot).head? = some j → (upIdle 0 [1] []).NoCharge j) ∧
    (∀ j, ([] : List Slot).head? = some j → (upIdle 0 [] [2]).NoCharge j) :=
  ⟨by unfold State.Takes; decide +kernel, fun j h => by cases h; exact Or.inr fun e h => by cases h; rfl,
    fun j h => by cases h⟩

/-- The other refusals of R135: an UP bowler with a ball in the frame, and one whose game is charged
and holds no ball. -/
theorem test_meets_move_refused :
    (rolling.entry 0 = some (entryOn .up .A) ∧ ballInFrame .A 0 rolling = true) ∧
    (playing.entry 1 = some (entryOn .waiting .A) ∧ gameEmpty 1 playing = true) := by decide +kernel

theorem test_meets_withdraw : rolling.Takes ind ∧ rolling.entry 0 = some (entryOn .up .A) ∧
    ballInFrame .A 0 rolling = true ∧ rolling.entry 1 = some (entryOn .waiting .A) ∧
    rolling.roster.session.mode = .opened := by
  unfold State.Takes; decide +kernel

/-- The other cases of R136: a slot that is DONE, and one whose withdrawal is pending. -/
theorem test_meets_withdraw_flags :
    (playing.modEntry 1 fun e => { e with status := .done }).entry 1 =
      some { entryOn .waiting .A with status := .done } ∧
    (playing.modEntry 1 fun e => { e with pendingWithdraw := true }).entry 1 =
      some { entryOn .waiting .A with pendingWithdraw := true } := by decide +kernel

theorem test_meets_skip : playing.Takes ind ∧ playing.roster.queues.get .A = 0 :: 1 :: [] ∧
    (playing.roster.queues.get .B).length < 2 ∧ ballInFrame .A 0 playing = false ∧
    ballInFrame .A 0 rolling = true ∧ (playing.acct .A).pending = none ∧
    (∀ e, playing.entry 1 = some e → e.gameCharged = true) :=
  ⟨by unfold State.Takes; decide +kernel, rfl, by decide +kernel, by decide +kernel,
    by decide +kernel, rfl, fun e h => by cases h; rfl⟩

/-- A SKIP past a pending charge, the account LOCKED or OPEN. -/
theorem test_meets_skip_pending :
    ((lockedOn 0 .perGame 0 (some .game)).Takes ind ∧
      ((lockedOn 0 .perGame 0 (some .game)).acct .A).pending = some ⟨0, .game⟩ ∧
      ((lockedOn 0 .perGame 0 (some .game)).acct .A).state = .locked ∧
      ballInFrame .A 0 (lockedOn 0 .perGame 0 (some .game)) = false) ∧
    (let s := playing.modAcct .A fun a => { a with pending := some ⟨0, .bowler⟩ }
     (s.acct .A).pending = some ⟨0, .bowler⟩ ∧ (s.acct .A).state ≠ .locked) := by
  unfold State.Takes; decide +kernel

/-- The four ways on at a frame end, the games limit met exactly; and a swap. -/
theorem test_meets_frame_end :
    (playing.roster.queues.get .A = 0 :: [1] ∧ (0 : Slot) ∉ [(1 : Slot)] ∧ [(1 : Slot)] ≠ [] ∧
      playing.entry 0 = some (entryOn .up .A) ∧ ¬0 < playing.roster.session.limit ∧
      playing.roster.session.mode = .opened) ∧
    ((playing.modEntry 0 fun e => { e with pendingWithdraw := true }).entry 0).map (·.pendingWithdraw) =
      some true ∧
    (let s := playing.modEntry 0 fun e => { e with games := 3 }
     let s := { s with roster := { s.roster with session := ⟨.cross, .tenPin, 3, .A⟩ } }
     (s.entry 0).map (·.games) = some 3 ∧ 0 < s.roster.session.limit ∧ s.roster.session.limit ≤ 3) ∧
    (let s := { playing with roster :=
      { playing.roster with
        session := ⟨.cross, .tenPin, 4, .A⟩
        entries := playing.roster.entries.set 0 (some ⟨.up, some .one, .A, 3, false, true, true⟩) } }
     (s.entry 0).map (fun e => (e.team, e.games)) = some (some .one, 3) ∧
       ¬s.roster.session.limit ≤ 3 ∧ s.roster.session.mode = .cross) ∧
    (let s := { cross with roster := { cross.roster with handover1 := [0, 1], handover2 := [2] } }
     s.roster.session.mode = .cross ∧ s.roster.queues = .both [] ∧ s.roster.handover1 ≠ [] ∧
       (s.roster.handover1 ++ s.roster.handover2).Nodup) ∧
    playing.roster.queues ≠ .both [] := by decide +kernel

/-- `playing` with slot 0 alone on lane A, of team 1, in a session of a mode with a games limit of 3,
`other` on lane B, and a handover list of team 2. -/
def alone (mode : Mode) (other list : List Slot) : State :=
  { playing with roster :=
    { playing.roster with
      session := ⟨mode, .tenPin, 3, .A⟩
      entries := playing.roster.entries.set 0 (some { entryOn .up .A with team := some .one })
      queues := ⟨[0], other⟩, handover2 := list } }

/-- The frame end of a bowler alone on his lane: in OPEN mode at no charge point, in CROSS mode with
the other lane's queue in use and empty, the other team waiting and not; a withdrawal pending; and
the games limit met exactly. -/
theorem test_meets_frame_end_alone :
    (∀ q ∈ [(Mode.opened, [(2 : Slot)], ([] : List Slot)), (.cross, [2], []), (.cross, [], []),
        (.cross, [], [2])],
      let s := alone q.1 q.2.1 q.2.2
      s.roster.queues.get .A = [0] ∧ (s.entry 0).map (·.team) = some (some .one) ∧
        s.roster.session.mode = q.1 ∧ s.roster.handover1 = [] ∧ (0 : Slot) ∉ s.roster.handover2 ∧
        ((s.roster.handover .one ++ [0]) ++ s.roster.handover .two).Nodup ∧
        (s.entry 0).map (fun e => (e.pendingWithdraw, e.games)) = some (false, 0) ∧
        (s.roster.queues.get Lane.A.other = [] ↔ q.2.1 = [])) ∧
    (alone .opened [2] []).NoCharge 0 ∧
    (((alone .cross [] []).modEntry 0 fun e => { e with pendingWithdraw := true }).entry 0).map
      (·.pendingWithdraw) = some true ∧
    (((alone .cross [] [2]).modEntry 0 fun e => { e with games := 3 }).entry 0).map (·.games) =
      some (alone .cross [] [2]).roster.session.limit :=
  ⟨by decide +kernel, Or.inr fun e h => by cases h; rfl, by decide +kernel, by decide +kernel⟩

/-- A ball of a frame in TENPIN. -/
def pins (before n : Nat) (m : Marks) : BallEntry := ⟨before, n, if m.foul then 0 else n, m, none, false, false⟩

/-- No marks. -/
def plain : Marks := ⟨false, false, false, false, false⟩

/-- `playing` with slot 0 in frame 2, its first frame 6 and 3. -/
def scored : State :=
  playing.setBowler 0 (some ⟨[⟨[pins 10 6 plain, pins 4 3 plain], some 9, some 9⟩], [], [], 0⟩)

theorem test_meets_correct : scored.Takes ind ∧
    (scored.bowler 0).map (·.game 0) =
      some (some [⟨[pins 10 6 plain, pins 4 3 plain], some 9, some 9⟩]) ∧
    currentFrameHasBall [⟨[pins 10 6 plain, pins 4 3 plain], some 9, some 9⟩] = false ∧
    scored.roster.session.format = .tenPin ∧
    ((6 : Byte).toNat + 3 ≤ 9 ∧ (7 : Byte).toNat + 3 = 10 ∧ (8 : Byte).toNat + 3 = 11) := by
  unfold State.Takes; decide +kernel

/-- The correction cases of R155 and R156: a slot 0 whose game 1 is stored, its frame 1 a strike,
frame 2 a spare, frame 3 a foul and a ball, frame 4 open, frame 5 on a rack of 7, and the others
open, a total of 97. -/
def storedGame : List FrameRecord :=
  rescore ([⟨[pins 10 10 { plain with strike := true }], some 0, none⟩,
      ⟨[pins 10 7 plain, pins 3 3 { plain with spare := true }], some 0, none⟩,
      ⟨[pins 10 2 { plain with foul := true }, pins 10 8 plain], some 0, none⟩,
      ⟨[pins 10 6 plain, pins 4 3 plain], some 0, none⟩,
      ⟨[pins 7 5 plain, pins 2 0 { plain with gutter := true }], some 0, none⟩] ++
    List.replicate 5 ⟨[pins 10 8 plain, pins 2 1 plain], some 0, none⟩)

/-- `playing` with that game stored, and slot 0 in frame 2 of his current one, a strike waiting and
a ball in the frame; his series 300. -/
def corrected : State :=
  playing.setBowler 0 (some
    { current := [⟨[pins 10 10 { plain with strike := true }], none, none⟩,
        ⟨[pins 10 4 plain], none, none⟩]
      bonuses := [⟨1, 1⟩], stored := [⟨storedGame, 97⟩], series := 300 })

/-- Each row of R156's table, with the outcome that it gives. -/
theorem test_meets_outcomes_of_corrections :
    (∀ q ∈ [(Format.tenPin, 1, 1, 9, Status.classChange), (.tenPin, 2, 2, 2, .classChange),
        (.tenPin, 2, 1, 9, .done), (.nineTap, 2, 1, 9, .classChange), (.nineTap, 2, 1, 8, .done),
        (.tenPin, 2, 1, 10, .classChange), (.tenPin, 3, 1, 10, .done), (.tenPin, 3, 2, 10, .classChange),
        (.tenPin, 3, 2, 9, .done), (.tenPin, 4, 1, 8, .range), (.tenPin, 4, 1, 7, .classChange),
        (.tenPin, 4, 1, 5, .done), (.tenPin, 4, 2, 5, .range), (.tenPin, 4, 2, 4, .classChange),
        (.tenPin, 5, 1, 7, .classChange), (.tenPin, 5, 1, 6, .done), (.tenPin, 6, 1, 9, .classChange)],
      (storedGame[q.2.1 - 1]?).bind (fun fr => (fr.balls[q.2.2.1 - 1]?).map fun b =>
        correctionOutcome q.1 fr.balls (q.2.2.1 - 1) b q.2.2.2.1) = some q.2.2.2.2) ∧
    correctionOutcome .nineTap [pins 10 5 plain, pins 5 0 plain] 0 (pins 10 5 plain) 9 = .classChange ∧
    correctionOutcome .tenPin [pins 10 5 plain, pins 5 0 plain] 0 (pins 10 5 plain) 9 = .done := by
  decide +kernel

theorem test_meets_corrections : corrected.Takes ind ∧
    (let w := { (corrected.bowler 0).getD .new with bonuses := [] }
     w.game 1 = some storedGame ∧ w.game 2 = none ∧ storedGame.length = 10 ∧
       w.stored[0]? = some ⟨storedGame, 97⟩ ∧ 97 ≤ w.series ∧
       (w.series - 97) + 300 ≤ 4294967295 ∧
       (storedGame[0]?).map (·.balls.length) = some 1 ∧
       currentFrameHasBall w.current = true ∧ currentFrame w.current = 2 ∧ w.current[2]? = none ∧
       (w.game 0).map (·.map (·.score)) = some [none, none]) ∧
    (corrected.station (.con .A)).state = .ready ∧ (corrected.station (.con .A)).slot = none ∧
    ({ corrected with link := base.link }.station (.con .A)).state ≠ .ready := by
  unfold State.Takes; decide +kernel

/-- Ball results of slot 0: for no bowler; the first ball of a new game; a second ball with a strike
waiting; and the ball that ends frame 10. Each rack lies within the one before it. -/
theorem test_meets_ball_result :
    base.bowler 0 = none ∧ (pinSet [7]).within PinSet.full = true ∧
    (playing.bowler 0 = some .new ∧ currentBalls Bowler.new.current = []) ∧
    (let frames := [⟨[pins 10 10 { plain with strike := true }], none, none⟩,
        (⟨[pins 10 3 plain], none, none⟩ : FrameRecord)]
     currentFrame frames = 2 ∧ currentBalls frames = [pins 10 3 plain] ∧
       ∀ w ∈ [(⟨1, 1⟩ : BonusWait)], 1 ≤ w.needed ∧ 1 ≤ w.frame ∧ w.frame < 2) ∧
    (let nine := List.replicate 9 (⟨[pins 10 3 plain, pins 7 3 plain], some 6, none⟩ : FrameRecord)
     currentFrame (nine ++ [⟨[pins 10 3 plain], none, none⟩]) = 10) ∧
    (∀ e, playing.entry 0 = some e → e.pendingWithdraw = false) :=
  ⟨by decide +kernel, by decide +kernel, by decide +kernel, by decide +kernel, by decide +kernel,
    fun e h => by cases h; rfl⟩

/-- No UP bowler of `playing` has a withdrawal pending. -/
theorem playing_noneLeaves : playing.NoneLeaves := by
  intro x k e hu he
  cases x <;> cases hu <;> cases he <;> rfl

/-- Forced closes: with a ball in flight, and on a lane clear of balls with a game begun;
`crossPlay` with its game begun, and a LOCKED account. -/
theorem test_meets_forced_close :
    (rolling.NoneLeaves ∧ laneClear .A rolling.transit = false) ∧
    (scored.Takes ind ∧ scored.NoneLeaves ∧ (scored.acct .A).state = .opened ∧
      laneClear .A scored.transit = true ∧ 0 ∈ scored.roster.queues.get .A ∧
      gameInProgress 0 scored = true ∧ gameInProgress 1 scored = false) ∧
    (let s := { scored with roster := crossPlay.roster }
     s.roster.session.mode = .cross ∧ s.NoneLeaves ∧ s.entry 0 ≠ none ∧
       gameInProgress 0 s = true ∧ s.entry 2 = none ∧ laneClear .B s.transit = true) ∧
    (let s := emptying.modAcct .A fun a => { a with state := .locked }
     (s.acct .A).state = .locked ∧ laneClear .A s.transit = false ∧ playInCover .A s = false) :=
  ⟨⟨playing_noneLeaves, by decide +kernel⟩,
    ⟨by unfold State.Takes; decide +kernel, playing_noneLeaves, by decide +kernel, by decide +kernel,
      by decide +kernel, by decide +kernel, by decide +kernel⟩,
    ⟨rfl, fun x k e hu he => by cases x <;> cases hu; cases he; rfl, by decide +kernel,
      by decide +kernel, by decide +kernel, by decide +kernel⟩,
    by decide +kernel⟩

theorem test_meets_clear : faulted.Takes ind ∧ (faulted.seq .A).state = .fault ∧
    (playing.seq .A).state ≠ .fault ∧ faulted.line.estop = false ∧
    (faulted.seq .A).pitStuck = false ∧ (faulted.station (.pin .A)).state = .ready ∧
    (faulted.station (.pin .A)).slot = none := by
  unfold State.Takes; decide +kernel

/-- Lane A in FAULT, its pinsetter in a state, with a resume order, the latch set or not, and its pit
line stuck or not. -/
def clearing (resume : PinOrder) (station : StationState) (latch stuck : Bool) : State :=
  let s := faulted.modSeq .A fun q => { q with resume := some resume, pitStuck := stuck }
  let s := s.modStation (.pin .A) fun r => { r with state := station }
  { s with line := { s.line with estop := latch } }

/-- The standing causes of R99 at a clear, each against the later ones, and none. -/
theorem test_meets_causes_at_clear :
    (∀ q ∈ [(PinOrder.park, StationState.lost, true, true, some FaultCode.estop),
        (.fullSet, .lost, false, true, some .link), (.fullSet, .ready, false, true, some .trigger),
        (.park, .ready, false, true, some .trigger), (.fullSet, .joining, false, false, none),
        (.park, .ready, false, false, none), (.fullSet, .ready, false, false, none)],
      let s := clearing q.1 q.2.1 q.2.2.1 q.2.2.2.1
      s.Takes ind ∧ (s.seq .A).state = .fault ∧ s.causeAtClear .A = q.2.2.2.2 ∧
        (s.seq .A).order = none ∧ (s.seq .A).place = none ∧ (s.station (.pin .A)).slot = none ∧
        ¬s.ParksAtClear .A) ∧
    ∀ station ∈ [StationState.lost, .joining, .absent, .quiet],
      let s := clearing .park station false true
      s.Takes ind ∧ (s.seq .A).state = .fault ∧ s.ParksAtClear .A := by
  unfold State.Takes State.ParksAtClear; decide +kernel

/-- `playing` with the return jammed. -/
def jammed : State :=
  { playing with transit := { playing.transit with fault := some ⟨.trackJam, none⟩ } }

/-- `playing` after a stop, its loop closed again. -/
def latched : State :=
  { playing with
    line := { playing.line with estop := true }
    transit := { playing.transit with frozen := true }
    seqs := playing.seqs.set .A { readySeq with state := .fault, fault := some ⟨.estop, none⟩ } }

theorem test_meets_return_clear : jammed.Takes ind ∧ jammed.transit.fault ≠ none ∧
    (jammed.station .ret).state ≠ .lost ∧ (jammed.station .ret).cache = none ∧
    playing.transit.fault = none ∧ jammed.transit.waiters = [] := by
  unfold State.Takes; decide +kernel

theorem test_meets_estop_clear : latched.Takes ind ∧ latched.line.estop = true ∧
    lineInactive .estop latched = true ∧ playing.line.estop = false ∧
    (∀ x, (latched.seq x).state = .fault → (latched.station (.pin x)).state = .ready ∧
      (latched.station (.pin x)).slot = none ∧ (latched.seq x).pitStuck = false) := by
  refine ⟨by unfold State.Takes; decide +kernel, rfl, by decide +kernel, rfl, fun x => ?_⟩
  cases x <;> decide +kernel

/-- A clear of the latch with both lanes in FAULT(ESTOP): a cause on one, on both, and PARK to do at
a pinsetter that is LOST. -/
theorem test_meets_estop_clear_causes :
    ∀ q ∈ [(true, false), (true, true)], ∀ resume ∈ [PinOrder.fullSet, .park],
      let s := { latched with seqs := ⟨
        { latched.seq .A with pitStuck := q.1, resume := some .fullSet },
        { latched.seq .A with pitStuck := q.2, resume := some resume }⟩ }
      let s := s.modStation (.pin .B) fun r => { r with state := .lost }
      let freed := { s with line := { s.line with estop := false } }
      s.Takes ind ∧ s.line.estop = true ∧ lineInactive .estop s = true ∧
        (s.seq .A).order = none ∧ (s.seq .A).place = none ∧ (s.seq .B).order = none ∧
        (s.seq .B).place = none ∧ freed.causeAtClear .A = some .trigger ∧
        (freed.ParksAtClear .B ↔ resume = .park) := by
  unfold State.Takes State.ParksAtClear; decide +kernel

theorem test_meets_restart : base.Takes ind ∧ base.BothClosed ∧ ((base.seq .A).state = .parked ∧
      (base.seq .B).state = .parked) ∧ base.link.state = .running ∧ ¬playing.BothClosed ∧
    (quiet.BothClosed ∧ quiet.link.state ≠ .running ∧ quiet.link.quietEntry = some 800 ∧
      800 + 200 ≤ quiet.now ∧ ¬800 + 200 ≤ (atMs quiet 999).now) := by
  unfold State.Takes State.BothClosed; decide +kernel

/-- `base` in the last window of the first round after a restart. -/
def restarting : State :=
  { base with
    command := { base.command with slot := some ⟨25, 60, false, .restarting⟩ }
    link := { base.link with round := some ⟨0, false, .con .B, true⟩ } }

theorem test_meets_restarted : restarting.link.round = some ⟨0, false, .con .B, true⟩ ∧
    restarting.command.slot = some ⟨25, 60, false, .restarting⟩ := ⟨rfl, rfl⟩

theorem test_meets_quiet_command :
    (quiet.link.state = .quiet ∨ quiet.link.quietPending = true) ∧
    ¬(base.link.state = .quiet ∨ base.link.quietPending = true) ∧ base.BothClosed ∧
    ¬(playing.link.state = .quiet ∨ playing.link.quietPending = true) ∧ ¬playing.BothClosed := by
  unfold State.BothClosed; decide +kernel

/-- `base` with a quiet round pending. -/
def goingQuiet : State := { base with link := { base.link with quietPending := true } }

theorem test_meets_wakes : base.line.wake.events = [] ∧ base.line.wake.accepted = some .high ∧
    goingQuiet.line.wake.events = [] ∧ goingQuiet.link.quietPending = true ∧
    goingQuiet.link.state ≠ .quiet ∧ goingQuiet.Takes ind ∧ quiet.line.wake.events = [] ∧
    quiet.line.wake.accepted = some .high ∧ quiet.link.state = .quiet := by
  unfold State.Takes; decide +kernel

/-- `s` with an assertion of the wake line that a sample tick has left waiting. -/
def wakeLeft (s : State) : State :=
  s.modLineUnit fun u => { u with wake := { line .low with events := [⟨.active, .low, 900⟩] } }

theorem test_meets_waiting_wake :
    ∀ s ∈ [base, goingQuiet, quiet], (wakeLeft s).Takes ind ∧
      (wakeLeft s).line.wake.events = ⟨.active, .low, 900⟩ :: [] := by
  unfold State.Takes; decide +kernel

/-- A wake line with no assertion to give, at LOW, at a level not known and with another
acceptance at its head: its row does nothing, and the commands' hypotheses are met. -/
theorem test_meets_idle_wake_line :
    ∀ w ∈ [line .low, LineState.initial, { line .high with events := [⟨.inactive, .high, 900⟩] }],
      ∀ s ∈ [base, goingQuiet, quiet],
        let s := s.modLineUnit fun u => { u with wake := w }
        s.Takes ind ∧ s.repeater = false ∧ (w.events = [] → w.accepted ≠ some .high) ∧
          (w.events.head?).map (·.kind) ≠ some .active ∧
          (after .wakeLine s).link = s.link := by
  unfold State.Takes; decide +kernel

theorem test_meets_query : quiet.link.state = .quiet ∧ base.link.state ≠ .quiet ∧
    4 < (5 : Byte).toNat := by decide

/-- The last windows of a query of the return: its report, its miss at the limit and below it,
and the end of a quiet round. -/
def asked (carried : Bool) (misses : Nat) (round : Round) : State :=
  { base with
    command := { base.command with slot := some ⟨8, 60, false, .query .ret carried misses⟩ }
    link := { base.link with round := some round } }

theorem test_meets_query_ends :
    (∀ q ∈ [(asked true 0 ⟨4, false, .ret, false⟩), asked true 1 ⟨4, false, .ret, false⟩,
        asked true 2 ⟨4, false, .ret, false⟩, asked true 0 ⟨4, true, .con .B, true⟩],
      ∀ x, (q.station (.con x)).state ≠ .ready) ∧
    base.command.timing.missLimit = 3 ∧
    (asked true 2 ⟨4, false, .ret, false⟩).link.round = some ⟨4, false, .ret, false⟩ ∧
    (asked false 0 ⟨4, true, .con .B, true⟩).link.wakeHeld = false := by
  refine ⟨fun q hq x => ?_, rfl, rfl, rfl⟩
  cases x <;> simp only [List.mem_cons, List.not_mem_nil, or_false] at hq <;>
    rcases hq with rfl | rfl | rfl | rfl <;> decide

/-- `base` with the round before complete, its timer expired. -/
def between : State := { base with link := { base.link with round := none } }

/-- `base` while the link is WAKING and the quiet minimum is over. -/
def waking : State :=
  { base with link := { base.link with
      state := .waking, quietEntry := some 800, round := none, roundTimer := none } }

theorem test_meets_rounds :
    (between.link.state = .running ∧ between.link.round = none ∧ between.link.roundTimer = some 5 ∧
      5 ≤ between.now) ∧
    (waking.link.state = .waking ∧ waking.link.quietEntry = some 800 ∧ 800 + 200 ≤ waking.now) := by
  decide +kernel

theorem test_meets_report : base.link.round = some ⟨0, false, .pin .A, false⟩ ∧
    ∀ n q, base.link.round ≠ some ⟨n, q, .ret, false⟩ :=
  ⟨rfl, fun _ _ h => nomatch h⟩

/-- A window of a position whose last report is in the cache with its counter: what a report that
settles shows again. -/
def settled (p : Position) (o : Option SlotOrder) : State :=
  { playing with link :=
    { playing.link with
      round := some ⟨3, false, p, false⟩
      stations := playing.link.stations.set p
        { readyStation with
          slot := o, cache := some ⟨report true none 0, 2⟩, baseline := some 0 } } }

/-- A console's report of a request. -/
def asks (w : Request) : Report := { report true none 0 with request := some w }

theorem test_meets_settled :
    (∀ p ∈ [Position.pin .A, .ret, .con .B],
      ((settled p none).station p).state = .ready ∧ ((settled p none).station p).rejoin = false ∧
        ((settled p none).station p).baseline = some (report true none 0).counter ∧
        ((settled p none).station p).cache.map (·.report.condition) =
          some (report true none 0).condition) ∧
    (settled (.pin .A) none).link.round = some ⟨3, false, .pin .A, false⟩ ∧
    (settled .ret none).command.slot = none ∧ (settled .ret none).transit.waiters = [] ∧
    (∀ x, ((settled .ret none).laneTransit x).closeWatch = false) :=
  ⟨by decide +kernel, rfl, rfl, rfl, fun x => by cases x <;> rfl⟩

/-- Lane A closing under a LANE_CLOSE that holds the slot, with a window of a position open. -/
def closingAt (p : Position) (f : Transit → Transit) : State :=
  (setSlot (some ⟨14, 59, false, .closing .A⟩) (settled p none)).modAcct .A (fun a =>
    { a with state := .closing, closeTimer := some 40000 }) |>.modSeq .A (fun q =>
    { q with state := .held, holds := { HoldSet.empty with closing := true } }) |>.modTransit f

/-- The last ball of the lane in its pit, and no place for it on a track of lane B's balls. -/
def lastLift : State :=
  closingAt (.pin .A) fun m =>
    { m with
      track := List.replicate 8 ⟨.B, 900⟩
      lanes := m.lanes.set .A { m.lanes.a with pitHold := [ball], closeWatch := true } }

/-- The last ball of the lane at the head of the track, with one of lane B's behind it. -/
def lastArrival : State :=
  closingAt .ret fun m =>
    { m with
      track := [⟨.A, 900⟩, ⟨.B, 901⟩]
      lanes := m.lanes.set .A { m.lanes.a with closeWatch := true } }

theorem closingAt_onlyCloses (p : Position) (f : Transit → Transit) :
    (closingAt p f).OnlyCloses :=
  fun d h => by cases h; exact .inl rfl

theorem test_meets_close_completes :
    (lastLift.OnlyCloses ∧ lastLift.NoneLeaves ∧ lastArrival.OnlyCloses ∧ lastArrival.NoneLeaves) ∧
    (let l := lastLift.laneTransit .A
     l.closeWatch = true ∧ l.inFlight = [] ∧ l.pitHold.length ≤ ((1 : BitVec 4) - 0).toNat ∧
       min 1 (l.reservation + freePlaces lastLift.transit) = 0 ∧
       ∀ b ∈ lastLift.transit.track, b.lane ≠ .A) ∧
    (let l := lastArrival.laneTransit .A
     l.closeWatch = true ∧ l.inFlight = [] ∧ l.pitHold = [] ∧
       (∃ e ∈ lastArrival.transit.track.take 1, e.lane = .A) ∧
       (∀ e ∈ lastArrival.transit.track.drop 1, e.lane ≠ .A) ∧
       (lastArrival.laneTransit .B).closeWatch = false ∧
       (lastArrival.station .ret).cache.map (·.report.condition) = some 0) :=
  ⟨⟨closingAt_onlyCloses _ _, playing_noneLeaves, closingAt_onlyCloses _ _, playing_noneLeaves⟩,
    by decide +kernel, by decide +kernel⟩

/-- A window of a position that is not in service, its slot empty. -/
def outside (p : Position) (st : StationState) (rejoin : Bool) : State :=
  (settled p none).modStation p fun r => { r with state := st, rejoin := rejoin }

/-- Positions that join, by an echo and without one; a pinsetter with a wanted order, and one that a
start waits for, with places for its balls and without. -/
theorem test_meets_joins :
    (∀ p ∈ [Position.pin .A, .ret, .con .A], ∀ q ∈ [(StationState.absent, false), (.lost, false),
        (.joining, true), (.joining, false)],
      let s := outside p q.1 q.2
      s.link.round = some ⟨3, false, p, false⟩ ∧ s.command.slot = none ∧
        (s.station p).state = q.1 ∧ (s.station p).rejoin = q.2 ∧ (s.station p).slot = none ∧
        (s.station p).answer = none ∧ (s.station p).baseline = some (report true none 0).counter) ∧
    (∀ b : Bool, (some (⟨b, .taken⟩ : Echo)).map (·.tag) ≠ some !b) ∧
    (report false none 0).ready = false ∧
    (∀ o ∈ [PinOrder.scan, .fullSet, .liftOnly, .respot 5, .park, .clear],
      let s := (outside (.pin .A) .lost false).modSeq .A fun q =>
        { q with state := .recover, order := some ⟨o, false⟩ }
      (s.seq .A).order = some ⟨o, false⟩ ∧ (s.seq .A).state ≠ .parked) ∧
    (let s := (outside (.pin .A) .absent false).modSeq .A fun q =>
       { q with state := .parked, startPending := true }
     (s.seq .A).state = .parked ∧ (s.seq .A).startPending = true ∧ (s.seq .A).order = none ∧
       s.line.estop = false ∧ (s.seq .A).pitStuck = false ∧ (s.seq .A).condition = 0 ∧
       s.transit.waiters = [] ∧ s.transit.fault = none ∧
       (s.laneTransit .A).pitHold.length ≤ freePlaces s.transit) := by decide +kernel

/-- A CALL on a lane in FAULT, by each code, with nothing against the CLEAR. -/
theorem test_meets_console_clear : ∀ c ∈ [FaultCode.station, .orderRefused, .cycleTimeout,
      .scanTimeout, .setMismatch, .pitJam, .link, .trigger, .estop],
    let s := (settled (.con .A) none).modSeq .A fun q =>
      { q with state := .fault, fault := some ⟨c, none⟩ }
    s.link.round = some ⟨3, false, .con .A, false⟩ ∧ (s.seq .A).fault = some ⟨c, none⟩ ∧
      s.line.estop = false ∧ (s.seq .A).pitStuck = false ∧ (s.station (.pin .A)).state = .ready ∧
      (s.station (.pin .A)).slot = none := by decide +kernel

/-- The echoes of R41 to R43: another tag, TAKEN, and a console's DONE and REFUSED, of a display
and of an answer, with an answer waiting, an item waiting and nothing waiting. -/
theorem test_meets_echoes :
    let item : Item := ⟨0, 0, .frame 1⟩
    let o : SlotOrder := ⟨.display item .absent, true, true⟩
    ((settled (.con .A) (some o)).station (.con .A)).slot = some o ∧
    (∀ e ∈ [Echo.mk false .taken, ⟨true, .taken⟩, ⟨true, .done 0⟩, ⟨true, .refused 5⟩],
      (report true (some e) 0).request = none ∧
        ((report true (some e) 0).echo.map (·.tag) ≠ some o.tag ↔ e.tag = false)) ∧
    (∀ l : List Item, ({ settled (.con .A) (some o) with link :=
      { (settled (.con .A) (some o)).link with dirty := ⟨l, []⟩ } }).link.dirty.get .A = l) :=
  ⟨by decide +kernel, by decide +kernel, fun _ => rfl⟩

/-- Lifts and arrivals: none, one, and fifteen across the counter's end; a reservation of 2, a
ball in the pit and one on the track. -/
theorem test_meets_lifts :
    let s := ((settled (.pin .A) none).modLane .A fun l =>
      { l with pitHold := [ball], reservation := 2 }).modTransit fun m => { m with track := [⟨.A, 9⟩] }
    ((s.station (.pin .A)).baseline = some 0 ∧ (s.laneTransit .A).closeWatch = false ∧
      s.command.slot = none) ∧
    (report true none 1).echo = none ∧
    (∀ k ∈ [(0, 0, 0), (1, 1, 1), (7, 7, 7), (15, 15, 7)],
      ((BitVec.ofNat 4 k.1 : BitVec 4) - 0).toNat = k.2.1 ∧
        min k.2.1 ((s.laneTransit .A).reservation + freePlaces s.transit) = k.2.2) ∧
    ((0 : BitVec 4) - 15).toNat = 1 := by decide +kernel

/-- The requests of R50: a tag taken before, each kind with its bounds, and the certified
session. -/
theorem test_meets_requests :
    let s := settled (.con .A) none
    let w : Request := ⟨true, 0, 11, 3, 1, 1, 10⟩
    ((s.station (.con .A)).requestTag = none ∧ (s.station (.con .A)).answer = none) ∧
    (asks w).echo = none ∧ (asks w).request = some w ∧
    (w.slot.toNat = 11 ∧ w.game.toNat = 3 ∧ 11 < (12 : Byte).toNat ∧ 3 < (4 : Byte).toNat) ∧
    ((s.seq .A).state ≠ .fault ∧ s.link.call.get .A = false) ∧
    { s with score := { s.score with certified := true } }.score.certified = true := by
  decide +kernel

/-- A report that ends a console's order and carries a request, R41's order of the two: the end of
an ANSWER, and of a DISPLAY with an answer waiting and without, an item waiting and none. -/
theorem test_meets_echo_and_request :
    let item : Item := ⟨0, 0, .frame 1⟩
    let w : Request := ⟨true, 2, 0, 0, 0, 0, 0⟩
    ∀ o ∈ [Order.answer false 2 .done, .display item .absent],
      ∀ st ∈ [EchoState.done 0, .refused 5], ∀ list ∈ [[], [item]],
        ∀ waiting ∈ [none, some (⟨false, 2, .done⟩ : Answer)],
        let s := ((settled (.con .A) (some ⟨o, true, true⟩)).modStation (.con .A) fun r =>
          { r with answer := waiting }).modLink fun l => { l with dirty := ⟨list, []⟩ }
        let rep : Report := { asks w with echo := some ⟨true, st⟩ }
        s.link.round = some ⟨3, false, .con .A, false⟩ ∧ s.command.slot = none ∧
          (s.station (.con .A)).state = .ready ∧ (s.station (.con .A)).rejoin = false ∧
          (s.station (.con .A)).cache.map (·.report.condition) = some rep.condition ∧
          (s.station (.con .A)).slot = some ⟨o, true, true⟩ ∧ st ≠ .taken ∧
          (s.station (.con .A)).requestTag ≠ some w.tag := by decide +kernel

/-- A window of pinsetter A with lane A in a state of its own, an order of it out or none, and the
position in a station state; its last report had condition 0. -/
def reporting (st : SeqState) (o : Option PinOrder) (station : StationState) : State :=
  let s := settled (.pin .A) (o.map fun o => ⟨.pin o, true, false⟩)
  let s := s.modStation (.pin .A) fun r => { r with state := station }
  s.modSeq .A fun q => { q with state := st, order := o.map fun o => ⟨o, true⟩ }

/-- `report` with a condition. -/
def conditioned (condition : Byte) : Report := { report true none 0 with condition := condition }

/-- A condition handed to a lane in every state, from a position in service and one that joins, and
its change back to OK. -/
theorem test_meets_conditions : (∀ st o r, (reporting st o r).NoneLeaves) ∧
    (∀ st ∈ everyState, ∀ o ∈ [none, some PinOrder.scan], ∀ r ∈ [StationState.ready, .lost, .joining],
      let s := reporting st o r
      s.link.round = some ⟨3, false, .pin .A, false⟩ ∧ s.command.slot = none ∧
        (s.station (.pin .A)).baseline = some (conditioned 3).counter ∧
        (s.station (.pin .A)).cache.map (·.report.condition) ≠ some (conditioned 3).condition ∧
        (s.seq .A).state = st ∧ (s.seq .A).place = none ∧ (s.seq .A).startPending = false) ∧
    (let s := (reporting .fault none .ready).modStation (.pin .A) fun r =>
       { r with cache := some ⟨conditioned 3, 2⟩ }
     (s.station (.pin .A)).cache.map (·.report.condition) ≠ some (conditioned 0).condition ∧
       (s.station (.pin .A)).rejoin = false ∧ (conditioned 0).echo = none) :=
  ⟨fun _ _ _ => playing_noneLeaves, by decide +kernel, by decide +kernel⟩

/-- A lift order that ends DONE in the report of its one lift, with a place of its reservation left
over, and with no reservation. -/
theorem test_meets_lifts_with_done :
    ∀ st ∈ [SeqState.cycling, .starting], ∀ o ∈ [PinOrder.fullSet, .liftOnly, .respot 5],
      ∀ places ∈ [2, 0],
      let s := (reporting st (some o) .ready).modLane .A fun l =>
        { l with pitHold := [ball], reservation := places }
      s.transit.waiters = [] ∧ (s.laneTransit .A).closeWatch = false ∧ (s.seq .A).place = none ∧
        (s.station (.pin .A)).slot = some ⟨.pin o, true, false⟩ ∧
        (s.seq .A).order = some ⟨o, true⟩ ∧ (s.station (.pin .A)).baseline = some 0 ∧
        (s.laneTransit .A).pitHold.length ≤ ((1 : BitVec 4) - 0).toNat := by decide +kernel

/-- `playing` with the window of a position open, its report in or not, and so many misses. -/
def window (p : Position) (reported : Bool) (misses : Nat) : State :=
  { playing with link :=
    { playing.link with
      round := some ⟨3, false, p, reported⟩
      stations := playing.link.stations.set p { readyStation with misses := misses } } }

theorem test_meets_windows :
    ((window (.pin .A) true 0).link.round = some ⟨3, false, .pin .A, true⟩ ∧
      nextPosition (.pin .A) = some (.pin .B)) ∧
    ((window (.con .B) false 1).link.round = some ⟨3, false, .con .B, false⟩ ∧
      ((window (.con .B) false 1).station (.con .B)).state = .ready ∧ 1 + 1 < playing.command.timing.missLimit) ∧
    (playing.command.timing.missLimit ≤ ((window (.pin .A) false 2).station (.pin .A)).misses + 1 ∧
      ((window (.pin .A) false 2).seq .A).state = .ready ∧
      ((window (.pin .A) false 2).seq .A).order = none ∧
      ((window (.pin .A) false 2).seq .A).place = none ∧
      (window (.pin .A) false 2).command.slot = none) ∧
    (window .ret false 2).transit.fault = none := by decide +kernel

/-- `window` of pinsetter A at its last miss, its lane in any state, with what can be pending. -/
def losing (st : SeqState) (start park : Bool) : State :=
  let s := leaving st .ready
  { s with
    link := { s.link with
      round := some ⟨3, false, .pin .A, false⟩
      stations := s.link.stations.set (.pin .A) { s.station (.pin .A) with misses := 2 } }
    seqs := s.seqs.set .A { s.seq .A with
      startPending := start, parkPending := park
      resume := if st = .recover ∧ park then some .park else none } }

theorem test_meets_losing : (∀ st start park, (losing st start park).NoneLeaves) ∧
    ∀ st ∈ everyState, ∀ start ∈ [true, false], ∀ park ∈ [true, false],
      let s := losing st start park
      s.link.round = some ⟨3, false, .pin .A, false⟩ ∧ s.command.slot = none ∧
        (s.station (.pin .A)).state = .ready ∧
        s.command.timing.missLimit ≤ (s.station (.pin .A)).misses + 1 ∧ (s.seq .A).state = st ∧
        ((s.seq .A).order = none ∨ (s.seq .A).place = none) :=
  ⟨fun st start park x k e hu _ => (by cases x <;> cases hu), by decide +kernel⟩

/-- The last window of an ordinary round and of a quiet one, with a wake held and without. -/
theorem test_meets_last_window :
    (window (.con .B) true 0).link.round = some ⟨3, false, .con .B, true⟩ ∧
    (window (.con .B) true 0).command.slot = none ∧
    ∀ held ∈ [true, false],
      let s := goingQuiet.modLink fun l =>
        { l with round := some ⟨3, true, .con .B, true⟩, wakeHeld := held }
      s.link.round = some ⟨3, true, .con .B, true⟩ ∧ s.command.slot = none ∧
        s.link.wakeHeld = held := by decide +kernel

theorem test_meets_reset : busy.Takes ind ∧ busy.repeater = false ∧ grp.group = true ∧
    busy.command.slot = none ∧ busy.NoneLeaves :=
  ⟨by unfold State.Takes; decide +kernel, rfl, by decide, rfl, playing_noneLeaves⟩

/-- `busy` with a RESET whose reply is next or second to depart, and with lane A CLOSING,
STARTING or PARKED with its start pending. -/
def resetting (ahead : Nat) : State :=
  { busy with
    command := { busy.command with slot := some ⟨28, 7, false, .resetting ahead⟩ }
    loop := { busy.loop with replies := [⟨7, .done, [28, 0]⟩] } }

theorem test_meets_departures : (resetting 0).Hears ∧ Good (frame 0 0 0 []) ∧
    (resetting 0).loop.replies = [⟨7, .done, [28, 0]⟩] ∧ (resetting 0).NoneLeaves ∧
    (resetting 0).repeater = false ∧
    (resetting 0).command.slot = some ⟨28, 7, false, .resetting 0⟩ ∧
    (resetting 1).command.slot = some ⟨28, 7, false, .resetting (0 + 1)⟩ ∧
    (resetting 0).link.state = .running :=
  ⟨⟨rfl, rfl⟩, good_frame .., rfl, playing_noneLeaves, rfl, rfl, rfl, rfl⟩

theorem test_meets_levels :
    (let s := withLine base (.pit .A) { line .high with stuckTimer := some 1000 }
     (s.line.lines.get (.pit .A)).stuckTimer = some 1000 ∧ 1000 ≤ s.now) ∧
    (let s := withLine playing (.pit .B) { line .high with stuckTimer := some 1000 }
     (s.seq .B).state ≠ .parked ∧ (s.seq .B).state ≠ .fault) ∧
    (base.seq .A).state = .parked := by decide +kernel

/-- An acceptance that a statement's hypothesis asks for, whatever line it leaves. -/
def CanGive (s : State) (l : InputLine) (kind : EdgeKind) (v : Level) (t : Nat) : Prop :=
  ∃ st, s.Gives l kind v st t

/-- A line that can make an acceptance of a kind now gives it. -/
theorem gives_now {s : State} {l : InputLine} {kind : EdgeKind} {v : Level}
    (he : (s.line.lines.get l).events = [])
    (ha : (s.line.lines.get l).accepted = if kind = .first then none else some v.flip) :
    CanGive s l kind v s.now := ⟨_, .inr ⟨he, ha, rfl, rfl⟩⟩

/-- A line on which a sample tick has left an acceptance waiting gives that one. -/
theorem gives_waiting {s : State} {l : InputLine} {kind : EdgeKind} {v : Level} {t : Nat}
    (he : (s.line.lines.get l).events = [⟨kind, v, t⟩]) :
    CanGive s l kind v t := ⟨_, .inl ⟨v, [], he, fun _ => rfl, rfl⟩⟩

/-- A state in which line `l` has an acceptance of time `t` waiting. -/
def left (s : State) (l : InputLine) (kind : EdgeKind) (v : Level) (t : Nat) : State :=
  withLine s l { line v with events := [⟨kind, v, t⟩] }

/-- `base` with lane A's pit line stuck, its inactive edge waiting, and a load that has made its
level active since and started its stuck timer. -/
def stuckSince : State :=
  let s := withLine base (.pit .A)
    { line .low with events := [⟨.inactive, .low, 900⟩], stuck := true, stuckTimer := some 9000 }
  let s := s.modSeq .A fun q => { q with pitStuck := true }
  { s with command := { s.command with lines := { s.command.lines with
    settings := s.command.lines.settings.set (.pit .A) ⟨.low, 3⟩ } } }

/-- First acceptances made now and left waiting; inactive edges, made now and left waiting, of a
line that is stuck and of one that a load has made active since. -/
theorem test_meets_acceptances :
    (CanGive State.reset (.foul .A) .first .high 0 ∧ CanGive State.reset .estop .first .high 0 ∧
      CanGive (left base (.pit .A) .first .low 900) (.pit .A) .first .low 900) ∧
    polarity .estop State.reset ≠ .high ∧
    (let s := withLine base (.pit .A) { line .high with stuck := true }
     CanGive s (.pit .A) .inactive (polarity (.pit .A) s).flip s.now ∧
       (s.line.lines.get (.pit .A)).stuck = true) ∧
    (let s := left base (.launch .A) .inactive .low 900
     CanGive s (.launch .A) .inactive (polarity (.launch .A) s).flip 900) ∧
    (let s := left base (.launch .A) .inactive .low 900
     let s := { s with command := { s.command with lines := { s.command.lines with
       settings := s.command.lines.settings.set (.launch .A) ⟨.low, 3⟩ } } }
     CanGive s (.launch .A) .inactive (polarity (.launch .A) s).flip 900 ∧
       (s.line.lines.get (.launch .A)).accepted = some (polarity (.launch .A) s)) ∧
    (let s := stuckSince
     CanGive s (.pit .A) .inactive (polarity (.pit .A) s).flip 900 ∧
       (s.line.lines.get (.pit .A)).stuck = true ∧ (s.seq .A).pitStuck = true ∧
       (s.line.lines.get (.pit .A)).accepted = some (polarity (.pit .A) s)) :=
  ⟨⟨gives_now rfl rfl, gives_now rfl rfl, gives_waiting rfl⟩, by decide,
    ⟨gives_now rfl rfl, rfl⟩, gives_waiting rfl,
    ⟨⟨_, .inl ⟨.low, [], rfl, fun h => (by cases h), rfl⟩⟩, rfl⟩,
    ⟨⟨_, .inl ⟨.low, [], rfl, fun h => (by cases h), rfl⟩⟩, rfl, rfl, rfl⟩⟩

/-- `playing` with four balls in flight on lane A. -/
def crowded : State :=
  playing.modLane .A fun l => { l with inFlight := List.replicate 4 { ball with scored := false, slot := none } }

/-- Edges of LAUNCH made now, and left waiting for the whole flight timeout. -/
theorem test_meets_launch :
    (∀ s ∈ [playing, rolling, crowded], (s.line.lines.get (.launch .A)).events = [] ∧
      (s.line.lines.get (.launch .A)).accepted = some .low ∧ polarity (.launch .A) s = .high) ∧
    (let s := left (atMs playing 11000) (.launch .A) .active .high 1000
     CanGive s (.launch .A) .active (polarity (.launch .A) s) 1000 ∧
       s.now ≤ 1000 + s.command.timing.flightTimeout) ∧
    CanGive playing (.launch .A) .active (polarity (.launch .A) playing) playing.now ∧
    (playing.laneTransit .A).inFlight.length < 4 ∧
    (playing.seq .A).state = .ready ∧ (rolling.seq .A).state ≠ .ready ∧
    (rolling.laneTransit .A).inFlight.length < 4 ∧ 4 ≤ (crowded.laneTransit .A).inFlight.length :=
  ⟨by decide +kernel, ⟨gives_waiting rfl, by decide +kernel⟩, gives_now rfl rfl, by decide +kernel,
    rfl, by decide +kernel, by decide +kernel, by decide +kernel⟩

/-- A launch with a pending foul, on an empty FIFO, behind an older ball and with four in flight;
and one left waiting past its flight under the ESTOP freeze. -/
theorem test_meets_foul_launch :
    (∀ s ∈ [playing, rolling, crowded],
      let s := s.modLane .A fun l => { l with pendingFoul := .running 2500 }
      (s.laneTransit .A).pendingFoul ≠ .stopped ∧ (s.line.lines.get (.launch .A)).events = [] ∧
        (s.line.lines.get (.launch .A)).accepted = some .low ∧ polarity (.launch .A) s = .high) ∧
    (let s := left ((atMs playing 20000).modTransit fun m => { m with frozen := true })
       (.launch .A) .active .high 1000
     CanGive s (.launch .A) .active (polarity (.launch .A) s) 1000 ∧
       (s.laneTransit .A).inFlight = [] ∧ s.transit.frozen = true) :=
  ⟨by decide +kernel, gives_waiting rfl, rfl, rfl⟩

theorem test_meets_pit :
    (CanGive rolling (.pit .A) .active (polarity (.pit .A) rolling) rolling.now ∧
      (rolling.laneTransit .A).inFlight = [ball] ∧ (rolling.laneTransit .A).pitHold.length < 4 ∧
      (rolling.seq .A).state ≠ .held ∧ (rolling.seq .A).scored = some ball.id ∧
      (rolling.seq .A).state = .ballOut) ∧
    (CanGive (left rolling (.pit .A) .active .high 900) (.pit .A) .active
      (polarity (.pit .A) rolling) 900) ∧
    (CanGive playing (.pit .A) .active (polarity (.pit .A) playing) playing.now ∧
      (playing.laneTransit .A).inFlight = [] ∧ (playing.laneTransit .A).lost = 0 ∧
      (playing.seq .A).state = .ready) ∧
    (let s := playing.modLane .A fun l => { l with lost := 1 }
     CanGive s (.pit .A) .active (polarity (.pit .A) s) s.now ∧
       (s.laneTransit .A).inFlight = [] ∧ 0 < (s.laneTransit .A).lost) ∧
    (let s := { rolling with seqs := playing.seqs }
     CanGive s (.pit .A) .active (polarity (.pit .A) s) s.now ∧ (s.seq .A).scored ≠ some ball.id) :=
  ⟨⟨gives_now rfl rfl, rfl, by decide +kernel, by decide +kernel, rfl, rfl⟩, gives_waiting rfl,
    ⟨gives_now rfl rfl, rfl, rfl, rfl⟩, ⟨gives_now rfl rfl, rfl, by decide +kernel⟩,
    ⟨gives_now rfl rfl, by decide +kernel⟩⟩

/-- Two balls in flight on lane A, the scored one first, and the second one's flight timeout at this
very moment. -/
def twoRolling : State :=
  (atMs rolling 10700).modLane .A fun l =>
    { l with inFlight :=
      [ball, { ball with id := 1, launch := some 700, scored := false, slot := none }] }

/-- `s` with `n` balls in lane A's pit, and lane A HELD for a desk hold. -/
def heldPit (n : Nat) (s : State) : State :=
  let dead := { ball with id := 7, scored := false, slot := none }
  (s.modLane .A fun l => { l with pitHold := List.replicate n dead }).modSeq .A fun q =>
    { q with state := .held, holds := { HoldSet.empty with desk := true } }

/-- Several balls in flight; a ball in flight, one given up and an inferred one on a HELD lane, the
track free, short of one place, and with a return fault; and each with a full pit hold. -/
theorem test_meets_pit_holds :
    (CanGive twoRolling (.pit .A) .active (polarity (.pit .A) twoRolling) twoRolling.now ∧
      (twoRolling.laneTransit .A).inFlight =
        ball :: { ball with id := 1, launch := some 700, scored := false, slot := none } :: [] ∧
      twoRolling.transit.frozen = false ∧ (twoRolling.seq .A).scored = some ball.id ∧
      (twoRolling.seq .A).state = .ballOut ∧
      twoRolling.now = 700 + twoRolling.command.timing.flightTimeout) ∧
    (∀ s ∈ [rolling, playing, playing.modLane .A fun l => { l with lost := 1 }],
      ((heldPit 1 s).line.lines.get (.pit .A)).events = [] ∧
      ((heldPit 1 s).line.lines.get (.pit .A)).accepted = some .low ∧
      polarity (.pit .A) (heldPit 1 s) = .high ∧
      ((heldPit 1 s).laneTransit .A).pitHold.length < 4 ∧ ((heldPit 1 s).seq .A).state = .held ∧
      (heldPit 1 s).transit.waiters = [] ∧ (heldPit 1 s).transit.fault = none ∧
      1 + 1 ≤ freePlaces (heldPit 1 s).transit ∧
      freePlaces { (heldPit 1 s).transit with track := List.replicate 7 ⟨.B, 900⟩ } < 1 + 1 ∧
      4 ≤ ((heldPit 4 s).laneTransit .A).pitHold.length) ∧
    (playing.laneTransit .A).inFlight = [] ∧ (playing.laneTransit .A).lost = 0 ∧
    (rolling.laneTransit .A).inFlight = [ball] ∧
    (let s := rolling.modLane .A fun l => { l with pitHold := List.replicate 4 ball }
     (s.seq .A).scored = some ball.id ∧ (s.seq .A).state = .ballOut ∧
       4 ≤ (s.laneTransit .A).pitHold.length) :=
  ⟨⟨gives_now rfl rfl, rfl, rfl, rfl, rfl, by decide +kernel⟩, by decide +kernel, rfl, rfl, rfl,
    by decide +kernel⟩

/-- A ball that joins an empty pit hold with a lift order out, and without one. -/
theorem test_meets_pit_timer : ∀ out ∈ [true, false],
    let s := rolling.modLane .A fun l => { l with liftOut := out }
    (s.line.lines.get (.pit .A)).events = [] ∧ (s.line.lines.get (.pit .A)).accepted = some .low ∧
      polarity (.pit .A) s = .high ∧ (s.laneTransit .A).pitHold = [] ∧
      (s.laneTransit .A).liftOut = out ∧ (s.laneTransit .A).inFlight = [ball] ∧
      (s.seq .A).scored = some ball.id ∧ (s.seq .A).state = .ballOut := by decide +kernel

/-- The two attributions of R109 meet where the foul window ends: an acceptance at 1,500 ms and
one at 1,501 ms after the launch. -/
theorem test_meets_foul : rolling.transit.frozen = false ∧
    rolling.command.lines.foulOn.get .A = true ∧
    (rolling.laneTransit .A).inFlight.getLast? = some ball ∧ ball.launch = some 500 ∧
    2000 - 500 ≤ rolling.command.timing.foulWindow ∧
    ¬2001 - 500 ≤ rolling.command.timing.foulWindow ∧
    CanGive (atMs rolling 2000) (.foul .A) .active (polarity (.foul .A) rolling) 2000 ∧
    CanGive (left (atMs rolling 2005) (.foul .A) .active .high 2001) (.foul .A) .active
      (polarity (.foul .A) rolling) 2001 :=
  ⟨rfl, rfl, rfl, rfl, by decide +kernel, by decide +kernel, gives_now rfl rfl, gives_waiting rfl⟩

/-- The newest ball as the scored ball and as another, behind an older one; the freeze; and
detection off. -/
theorem test_meets_fouled_copy :
    (∀ n ∈ [0, 1],
      let s := twoRolling.modSeq .A fun q => { q with scored := some n }
      CanGive s (.foul .A) .active (polarity (.foul .A) s) s.now) ∧
    (twoRolling.laneTransit .A).inFlight.getLast?.map (·.id) = some 1 ∧
    (let s := playing.modTransit fun m => { m with frozen := true }
     CanGive s (.foul .A) .active (polarity (.foul .A) s) s.now ∧ s.transit.frozen = true ∧
       (s.laneTransit .A).inFlight.getLast? = none) ∧
    (let s := { playing with command := { playing.command with lines :=
       { playing.command.lines with foulOn := .both false } } }
     CanGive s (.foul .A) .active (polarity (.foul .A) s) s.now ∧
       s.command.lines.foulOn.get .A = false) :=
  ⟨fun _ _ => gives_now rfl rfl, rfl, ⟨gives_now rfl rfl, rfl, rfl⟩, gives_now rfl rfl, rfl⟩

theorem test_meets_estop :
    CanGive playing .estop .active (polarity .estop playing) playing.now ∧
    CanGive (left playing .estop .active .low 900) .estop .active (polarity .estop playing) 900 ∧
    CanGive (left playing .estop .first .low 900) .estop .first (polarity .estop playing) 900 ∧
    playing.line.estop = false ∧ playing.transit.waiters = [] ∧ (playing.seq .A).order = none ∧
    (playing.seq .B).order = none ∧ latched.line.estop = true ∧
    CanGive latched .estop .active (polarity .estop latched) latched.now :=
  ⟨gives_now rfl rfl, gives_waiting rfl, gives_waiting rfl, rfl, rfl, rfl, rfl, rfl,
    gives_now rfl rfl⟩

/-- `playing` with lane A in a state of its own, an order posted and its timers at second 1. -/
def ordered (st : SeqState) (o : PinOrder) : State :=
  { playing with
    seqs := playing.seqs.set .A
      { readySeq with
        state := st, order := some ⟨o, true⟩, orderTimer := some 1000
        settleTimer := if st = .settle then some 1000 else none }
    transit := { playing.transit with
      lanes := playing.transit.lanes.set .A { LaneTransit.initial with pitTimer := .running 1000 } } }

/-- The order timer and the pit timer at their expiry in each state that can have the order out. -/
theorem test_meets_order_timers :
    ∀ q ∈ [(SeqState.starting, PinOrder.fullSet), (.cycling, .liftOnly), (.scan, .scan),
        (.recover, .clear), (.recover, .scan), (.recover, .respot 5), (.parking, .park)],
      let s := ordered q.1 q.2
      (s.seq .A).state = q.1 ∧ (s.seq .A).order = some ⟨q.2, true⟩ ∧ (s.seq .A).place = none ∧
        s.transit.waiters = [] ∧ (s.seq .A).orderTimer = some 1000 ∧
        (s.laneTransit .A).pitTimer = .running 1000 ∧ 1000 ≤ s.now := by decide +kernel

theorem test_meets_sequencer_timers :
    (((ordered .settle .scan).seq .A).state = .settle ∧
      ((ordered .settle .scan).seq .A).settleTimer = some 1000 ∧
      ((ordered .settle .scan).station (.pin .A)).state = .ready ∧
      (State.reset.station (.pin .A)).state ≠ .ready) ∧
    (((ordered .cycling .fullSet).seq .A).order = some ⟨.fullSet, true⟩ ∧
      ((ordered .cycling .fullSet).seq .A).place = none ∧
      (ordered .cycling .fullSet).transit.waiters = [] ∧
      ((ordered .cycling .fullSet).seq .A).startPending = false ∧
      ((ordered .cycling .fullSet).seq .A).parkPending = false ∧
      ((ordered .cycling .fullSet).seq .A).orderTimer = some 1000 ∧
      ((ordered .cycling .fullSet).laneTransit .A).pitTimer = .running 1000 ∧
      ((ordered .cycling .fullSet).seq .A).state = .cycling) ∧
    ((ordered .scan .scan).seq .A).state = .scan := by decide +kernel

/-- A dead ball in flight at its flight timeout, and every other timer of R105, R110, R114, R117,
R121, R74 and R164 at its expiry. -/
def expiring : State :=
  { playing with
    transit := { playing.transit with
      trackTimer := .running 1000, idleTimer := .running 1000
      lanes := playing.transit.lanes.set .A
        { LaneTransit.initial with
          inFlight := [ball], flightTimer := .running 1000, pendingFoul := .running 1000 } }
    line := { playing.line with foulLamp := ⟨some 1000, none⟩ }
    account := { playing.account with staleTimer := some 1000 } }

theorem test_meets_transit_timers : 1000 ≤ expiring.now ∧
    (expiring.laneTransit .A).flightTimer = .running 1000 ∧
    (expiring.laneTransit .A).inFlight = [ball] ∧ (expiring.seq .A).scored ≠ some ball.id ∧
    (expiring.laneTransit .A).closeWatch = false ∧ expiring.transit.trackTimer = .running 1000 ∧
    expiring.transit.fault = none ∧ (expiring.laneTransit .A).pendingFoul = .running 1000 ∧
    expiring.transit.idleTimer = .running 1000 ∧ expiring.line.foulLamp.get .A = some 1000 ∧
    expiring.account.staleTimer = some 1000 := by decide +kernel

/-- `rolling` at second 11 with its flight timer out, its launched balls `bs`. -/
def overdue (bs : List BallRecord) : State :=
  (atMs rolling 11000).modLane .A fun l => { l with inFlight := bs, flightTimer := .running 11000 }

/-- Two dead balls, the flight timeout of the second one at this moment and 1 ms ago; and the
scored ball alone, on a lane with no hold reason, with one, with a ball in its pit too, and with
a park to make. -/
theorem test_meets_void :
    (∀ l ∈ [1000, 999],
      let s := overdue [{ ball with id := 8 }, { ball with id := 9, launch := some l }]
      (s.laneTransit .A).flightTimer = .running 11000 ∧ 11000 ≤ s.now ∧
        (s.seq .A).scored = some 0 ∧ s.transit.frozen = false ∧
        (s.laneTransit .A).closeWatch = false) ∧
    ((overdue [ball]).now ≤ 1000 + (overdue [ball]).command.timing.flightTimeout ∧
      999 + (overdue [ball]).command.timing.flightTimeout < (overdue [ball]).now) ∧
    (((overdue [ball]).laneTransit .A).inFlight = [ball] ∧ ((overdue [ball]).seq .A).scored = some ball.id ∧
      ((overdue [ball]).seq .A).state = .ballOut ∧ ((overdue [ball]).laneTransit .A).closeWatch = false ∧
      ((overdue [ball]).seq .A).parkPending = false ∧ ((overdue [ball]).seq .A).holds = .empty) ∧
    (let s := (overdue [ball]).modSeq .A fun q => { q with holds := { HoldSet.empty with desk := true } }
     (s.seq .A).holds ≠ .empty ∧ (s.laneTransit .A).pitHold = [] ∧
       ((s.modLane .A fun l => { l with pitHold := [ball] }).laneTransit .A).pitHold ≠ []) ∧
    (((overdue [ball]).modSeq .A fun q => { q with parkPending := true }).seq .A).parkPending = true ∧
    (overdue [ball]).NoneLeaves ∧ (overdue [ball]).HeadWaits ∧
    { overdue [ball] with transit := { (overdue [ball]).transit with
      waiters := [⟨.B, 2⟩], track := List.replicate 7 ⟨.B, 900⟩ } }.HeadWaits :=
  ⟨by decide +kernel, by decide +kernel, by decide +kernel, by decide +kernel, rfl,
    playing_noneLeaves, nobody_waits rfl, head_waits rfl (by decide +kernel)⟩

/-- The flight timeout of the last balls of a lane under a close watch: one dead one, two, and the
scored one. -/
theorem test_meets_last_flight :
    (∀ bs ∈ [[{ ball with id := 8 }], [{ ball with id := 8 }, { ball with id := 9, launch := some 999 }],
        [ball]],
      let s := (overdue bs).modLane .A fun l => { l with closeWatch := true }
      (s.laneTransit .A).closeWatch = true ∧ (s.laneTransit .A).pitHold = [] ∧
        (∀ b ∈ s.transit.track, b.lane ≠ .A) ∧ (s.laneTransit .A).inFlight = bs ∧
        (s.seq .A).scored = some 0 ∧ (s.seq .A).state = .ballOut) ∧
    ∀ bs f, ((overdue bs).modLane .A f).NoneLeaves :=
  ⟨by decide +kernel, fun _ _ => playing_noneLeaves⟩

/-- Lane A closing, one ball left, at its close timeout. -/
def closing : State :=
  { emptying with account := { emptying.account with
      accounts := emptying.account.accounts.set .A
        { emptying.acct .A with state := .closing, closeTimer := some 1000 } } }

theorem test_meets_close_timeout : (closing.acct .A).closeTimer = some 1000 ∧ 1000 ≤ closing.now ∧
    (closing.transit.track.filter fun b => b.lane = .A).length = 1 := by decide +kernel

/-- `leaving` with a close at its timeout and balls left, under a LANE_CLOSE that holds the slot; the
place request of LIFT_WAIT is at the head of the waiter list and cannot be granted. -/
def timingOut (st : SeqState) (r : StationState) : State :=
  let s := leaving st r
  { s with
    command := { s.command with slot := some ⟨14, 59, false, .closing .A⟩ }
    account := closing.account
    transit := { s.transit with
      fault := if st = .liftWait then some ⟨.trackJam, none⟩ else none
      waiters := if st = .liftWait then [⟨.A, 0⟩] else []
      lanes := s.transit.lanes.set .A { LaneTransit.initial with
        inFlight := [ball], pitHold := [ball], closeWatch := true } } }

theorem test_meets_park_at_timeout :
    (∀ st r, (timingOut st r).NoneLeaves) ∧
    (∀ f : Transit → List TrackEntry, ∀ r,
      ((timingOut .liftWait r).modTransit fun m => { m with track := f m }).HeadWaits) ∧
    ∀ st ∈ everyState, ∀ r ∈ [StationState.ready, .lost],
      let s := timingOut st r
      ((s.acct .A).closeTimer = some 1000 ∧ 1000 ≤ s.now) ∧ (s.seq .A).state = st ∧
        (st ≠ .liftWait → s.transit.waiters = []) ∧
        s.command.slot = some ⟨14, 59, false, .closing .A⟩ ∧
        (st = .scan → (s.seq .A).order = some ⟨.scan, true⟩) :=
  ⟨fun st r x k e hu _ => (by cases x <;> cases hu),
    fun f r w rest h => .inl (by show (some (⟨.trackJam, none⟩ : ReturnFault)) ≠ none; decide),
    by decide +kernel⟩

theorem test_meets_samples : base.now + 1 < 2 ^ 48 ∧
    (base.line.lines.get (.launch .A)).accepted = some .low ∧
    (base.line.lines.get (.launch .A)).run + 1 < (base.command.lines.settings.get (.launch .A)).count ∧
    (base.command.lines.settings.get (.launch .A)).count ≤ { line .low with run := 2 }.run + 1 := by
  decide +kernel

/-- Lines whose level is unknown, before their first sample and one below the filter count; and
the wake line, known and unknown. -/
theorem test_meets_unknown : (State.reset.line.lines.get .estop).accepted = none ∧
    1 < (State.reset.command.lines.settings.get .estop).count ∧
    (let n := (State.reset.command.lines.settings.get .estop).count - 1
     let s := withLine State.reset .estop { LineState.initial with run := n, runLevel := .high }
     (s.line.lines.get .estop).accepted = none ∧ (s.command.lines.settings.get .estop).count ≤ n + 1) ∧
    (∀ e ∈ base.line.wake.events, e.kind = .active) ∧ base.line.wake.accepted = some .high ∧
    State.reset.line.wake.accepted = none := by decide +kernel

/-! ### The loop and the commands: the manual's worked sequences -/

/-- R180: the well-known check value of this check (PRESUMED: "123456789" gives 29B1, the published
value of the CRC with this polynomial and start). -/
theorem test_check : crc16 [0x31, 0x32, 0x33, 0x34, 0x35, 0x36, 0x37, 0x38, 0x39] = 0x29B1 := by
  decide +kernel

/-- Section 1.6, a break in the ring: an outage of 9,352 ms is 9 s, and the FAULT notice stays
ahead. -/
theorem test_outage :
    (goodFrame
      { atMs base 9400 with
        loop := { base.loop with
          up := false, timer := none, downTime := 48, notices := [⟨.fault .A .trigger none, 3000⟩] } }
      ).loop.notices.map (·.body) = [.fault .A .trigger none, .loopRestored 9] := by decide +kernel

theorem test_loop_down :
    let t := after .loopDown (atMs base 1050)
    t.loop.up = false ∧ t.loop.counters.loopDowns = 1 ∧ t.loop.downTime = 1050 := by decide +kernel

/-- Section 1.4: a blank at pair 14 takes its CREDIT_LOW notice. -/
theorem test_blank_filled :
    let s := { base with loop := { base.loop with notices := [⟨.creditLow .A 100, 7⟩] } }
    (sendBlank (frame 0 0 0 []) s).loop.notices = [] ∧
      (sendBlank (frame 0 0 0 []) s).loop.counters.noticesSent = 1 := by decide +kernel

/-- Section 2.11: with a close in the slot, HOLD is BUSY and leaves 2 free places. -/
theorem test_busy :
    lastReply (after (.hold ind 1 1) holding) = some (.busy, []) ∧
      freeReplies (after (.hold ind 1 1) holding) = 2 := by decide +kernel

/-- Section 2.11: the fifth command finds the queue full, and is dropped. -/
theorem test_dropped :
    let s := { holding with
      loop := { holding.loop with replies := List.replicate 3 ⟨7, .done, [12, 0]⟩ } }
    (after (.rosterAdd ind 0 0) s).loop.counters.dropped = 1 ∧
      (after (.rosterAdd ind 0 0) s).loop.replies = s.loop.replies := by decide +kernel

theorem test_unknown : lastReply (after (.unknownCommand ind 30) base) = some (.unknown, []) := by
  decide +kernel

/-- R28: a settle time below its range is clamped and the record is taken. -/
theorem test_timing :
    let t := after (.tableLoadTiming ind (timingRecord 499)) base
    t.command.timing = { Timing.default with settle := 500 } ∧
      lastReply t = some (.doneClamped, []) := by decide +kernel

theorem test_groups :
    (after (.tableLoadGroups ind [2, 1, 15]) base).loop.groups = 0x8002 ∧
      lastReply (after (.tableLoadGroups ind [1, 16]) base) = some (.range, []) := by decide +kernel

/-- R24: the same load as a group command is carried out, gives no reply and raises COMMAND_REFUSED. -/
theorem test_group_clamped :
    let t := after (.tableLoadTiming grp (timingRecord 499)) base
    t.command.timing = { Timing.default with settle := 500 } ∧ t.loop.replies = [] ∧
      t.loop.notices.map (·.body) = [.commandRefused false 9 0 .doneClamped] := by decide +kernel

/-- R25 and R26: before any report, a read of position 2 shows it ABSENT. -/
theorem test_station_read :
    (lastReply (after (.stationRead ind 2) base)).map (·.2.take 2) = some [2, 0] ∧
      lastReply (after (.stationRead ind 5) base) = some (.range, []) := by decide +kernel

theorem test_group_read : (after (.rosterRead grp) base).loop = base.loop := by decide +kernel

/-! ### The lines and the balls -/

/-- Section 4.1, a launch gate with contact bounce: the third HIGH in a row is accepted with the
time 80,002. -/
theorem test_bounce_accepts :
    let s := withLine { base with time := ⟨80002, false, 120000⟩ } (.launch .A)
      { line .low with run := 2 }
    let t := after (.sampleTick ⟨⟨.low, .low, .high, .low, .low, .low, .high⟩, .high⟩) s
    t.line.lines.get (.launch .A) = { line .high with events := [⟨.active, .high, 80002⟩] } := by
  decide +kernel

/-- Section 4.1: the LOW sample ends the first run. -/
theorem test_bounce_restarts :
    let s := withLine base (.launch .A) { line .low with run := 2 }
    let t := after (.sampleTick ⟨⟨.low, .low, .low, .low, .low, .low, .high⟩, .high⟩) s
    t.line.lines.get (.launch .A) = line .low := by decide +kernel

/-- R104: a READY lane makes the launch a scored ball of its UP bowler. -/
theorem test_launch :
    let t := after (.launch .A) playing
    (t.seq .A).state = .ballOut ∧ (t.laneTransit .A).inFlight.map (·.slot) = [some 0] ∧
      t.transit.seen = 1 := by decide +kernel

/-- The table of R111. -/
theorem test_speed : ballSpeed 1830 2440 = some 270 ∧ ballSpeed 1830 2400 = some 275 ∧
    ballSpeed 1830 1700 = some 388 ∧ ballSpeed 1830 1500 = none := by decide

/-- Section 5.6: the pit arrival 2,440 ms after the launch settles the lane at 27.0 km/h. -/
theorem test_pit_arrival :
    let t := after (.pitArrival .A) (atMs rolling 2940)
    (t.seq .A).state = .settle ∧ (t.seq .A).settleTimer = some 5440 ∧
      (t.laneTransit .A).pitHold.map (·.speed) = [some 270] := by decide +kernel

/-- Section 6.1, a ball given up: written off, one lost, the lane READY again. -/
theorem test_ball_lost :
    let t := after (.flightTimeout .A) (atMs rolling 10500)
    (t.laneTransit .A).lost = 1 ∧ t.transit.writeOffs = 1 ∧ (t.seq .A).state = .ready ∧
      t.loop.notices.map (·.body) = [.ballLost .A 500] := by decide +kernel

/-- Section 6.1, and found: a dead record, the count and the net write-offs back at 0. -/
theorem test_ball_found :
    let s := playing.modLane .A fun l => { l with lost := 1 }
    let t := after (.pitArrival .A) (s.modTransit fun m => { m with seen := 1, writeOffs := 1 })
    (t.laneTransit .A).lost = 0 ∧ t.transit.writeOffs = 0 ∧ (t.seq .A).state = .ready ∧
      (t.laneTransit .A).pitHold.map (·.scored) = [false] := by decide +kernel

/-- Section 6.2: 400 ms after the launch the edge fouls the ball, and the lamp stands for 3 s. -/
theorem test_foul_after :
    let t := after (.foulEdge .A) (atMs rolling 900)
    (t.laneTransit .A).inFlight.map (·.foul) = [true] ∧ t.line.foulLamp.get .A = some 3900 ∧
      t.line.outputs.lamp.get .A = .steady := by decide +kernel

/-- Section 6.2: an edge with no ball waits for the foul window. -/
theorem test_foul_before :
    ((after (.foulEdge .A) playing).laneTransit .A).pendingFoul = .running 2500 := by decide +kernel

/-- Section 6.2: a launch at 20,300 ms takes the pending foul, behind an older ball that stays
clean; the lamp stands to 23,300 ms, and on an empty FIFO the flight timer starts. -/
theorem test_foul_launch :
    let launched := fun s : State => after (.launch .A)
      ((atMs s 20300).modLane .A fun l => { l with pendingFoul := .running 21500 })
    ((launched playing).laneTransit .A).inFlight.map (·.foul) = [true] ∧
      ((launched playing).laneTransit .A).copy = some ⟨some 0, true, false, none⟩ ∧
      ((launched playing).laneTransit .A).pendingFoul = .stopped ∧
      ((launched playing).laneTransit .A).flightTimer = .running 30300 ∧
      (launched playing).line.foulLamp.get .A = some 23300 ∧
      ((launched rolling).laneTransit .A).inFlight.map (·.foul) = [false, true] := by
  decide +kernel

/-- Section 4.4, a stop: the lane that was cycling will resume its FULL_SET, and the outputs. -/
theorem test_stop :
    let t := seqFault .A .estop none (ordered .cycling .fullSet)
    (t.seq .A).state = .fault ∧ (t.seq .A).fault = some ⟨.estop, none⟩ ∧
      (t.seq .A).resume = some .fullSet ∧
      arbitrate latched = ⟨false, false, .both .fast, .slow⟩ := by decide +kernel

/-- Section 4.4, its clear: refused while the line is active, and DONE after. -/
theorem test_stop_cleared :
    lastReply (after (.faultClearEstop ind) (withLine latched .estop (line .low))) =
      some (.state, []) ∧
    (let t := estopCleared .A { latched with line := { latched.line with estop := false } }
     (t.seq .A).state = .recover ∧ (t.seq .A).order = some ⟨.clear, true⟩ ∧
       (arbitrate t).pairPower = true ∧ (arbitrate t).lamp = .both .off) := by decide +kernel

/-! ### The pit link and the sequencers -/

/-- A window of pinsetter A with lane A in a state of its own and an order in the slot. -/
def atWork (q : Sequencer) (o : PinOrder) : State :=
  let s := settled (.pin .A) (some ⟨.pin o, true, false⟩)
  { s with seqs := s.seqs.set .A { q with order := some ⟨o, true⟩, orderTimer := some 4000 } }

/-- The ends of an order in each state that has one out: the outcome's report settles the
position. -/
theorem test_meets_outcomes :
    (∀ q ∈ [(SeqState.starting, PinOrder.fullSet), (.cycling, .liftOnly), (.cycling, .respot 5),
        (.cycling, .fullSet), (.scan, .scan), (.recover, .clear), (.recover, .scan), (.recover, .park),
        (.parking, .park)],
      let s := atWork { readySeq with state := q.1, scored := some 0 } q.2
      s.link.round = some ⟨3, false, .pin .A, false⟩ ∧ s.command.slot = none ∧
        (s.station (.pin .A)).slot = some ⟨.pin q.2, true, false⟩ ∧ (s.seq .A).state = q.1 ∧
        (s.seq .A).order = some ⟨q.2, true⟩ ∧ s.transit.waiters = [] ∧ (s.seq .A).place = none ∧
        (s.seq .A).startPending = false ∧ (s.seq .A).parkPending = false ∧
        (s.station (.pin .A)).state = .ready ∧ (s.station (.pin .A)).baseline = some 0 ∧
        (s.station (.pin .A)).cache.map (·.report.condition) = some 0) ∧
    (report true (some ⟨true, .done PinSet.full⟩) 0).echo = some ⟨true, .done PinSet.full⟩ ∧
    (report true (some ⟨true, .refused 4⟩) 0).echo = some ⟨true, .refused 4⟩ ∧
    ((pinSet [4]).within (pinSet [4, 7]) = true ∧ (pinSet [6, 7]).within (pinSet [4, 7]) = false) ∧
    (rolling.laneTransit .A).copy = some ⟨some 0, false, false, none⟩ := by decide +kernel

/-- The CLEAR of a recovery whose resume order is a lift order, with places on the track for the ball in
the pit and with none. -/
theorem test_meets_lift_resumes :
    ∀ lift ∈ [PinOrder.fullSet, .liftOnly, .respot 5],
      let s := (atWork { readySeq with state := .recover, clearStep := true, resume := some lift }
        .clear).modLane .A fun l => { l with pitHold := [ball] }
      let full := s.modTransit fun m => { m with track := List.replicate 8 ⟨.B, 900⟩ }
      (s.seq .A).resume = some lift ∧ s.transit.fault = none ∧
        (s.laneTransit .A).pitHold.length ≤ freePlaces s.transit ∧
        freePlaces full.transit < (full.laneTransit .A).pitHold.length ∧
        full.transit.waiters = [] := by decide +kernel

/-- Section 3.3: the echo of another tag is ignored. -/
theorem test_echo_of_another_tag :
    let s := atWork { readySeq with state := .cycling } .fullSet
    let t := after (.reportArrival (.pin .A) (report true (some ⟨false, .done PinSet.full⟩) 0)) s
    (t.station (.pin .A)).slot = some ⟨.pin .fullSet, true, false⟩ ∧
      (t.seq .A).state = .cycling := by decide +kernel

/-- Section 5.6.3: the second scan reports {6, 7} before {4, 7, 10}; the set used is {7}. -/
theorem test_scan_doubt :
    let s := atWork
      { readySeq with
        state := .scan, standing := pinSet [4, 7, 10], retry := true, scored := some 0 } .scan
    let s := s.modLane .A fun l => { l with copy := some ⟨some 0, false, false, none⟩ }
    let t := after
      (.reportArrival (.pin .A) (report true (some ⟨true, .done (pinSet [6, 7])⟩) 0)) s
    (t.loop.notices.map (·.body)).head? =
      some (.scanDoubt .A (pinSet [6, 7]) (pinSet [4, 7, 10]) (pinSet [7])) := by decide +kernel

/-- R93 and the worked example of section 5.6: FULL_SET DONE with the full rack is the rest
point. -/
theorem test_cycle_done :
    let t := cycleDone .A .fullSet PinSet.full
      (playing.modSeq .A fun q => { q with state := .cycling, standing := 0 })
    (t.seq .A).state = .ready ∧ (t.seq .A).standing = PinSet.full := by decide +kernel

/-- Section 3.3: a missed report counts; at the limit of 3 the station is LOST and the lane is in
FAULT(LINK). -/
theorem test_missed :
    let t := after (.reportWindowClose (.pin .A)) (window (.pin .A) false 2)
    (t.station (.pin .A)).state = .lost ∧ (t.seq .A).fault = some ⟨.link, none⟩ := by decide +kernel

/-- Section 3.8, an early wake at 124 ms: WAKING, every position JOINING. -/
theorem test_early_wake :
    let t := after .broadcastWake (atMs quiet 920)
    t.link.state = .waking ∧ (t.station (.con .B)).state = .joining := by decide +kernel

/-- Section 3.8: at the minimum the next round starts. -/
theorem test_minimum_reached :
    (after .wakeMinimum waking).link.round = some ⟨1, false, .pin .A, false⟩ := by decide +kernel

/-- R59: at power-on the first round starts at once. -/
theorem test_power_on :
    let t := after (.powerOn 12) busy
    t.loop.pairNumber = 12 ∧ t.link.round = some ⟨0, false, .pin .A, false⟩ := by decide +kernel

/-! ### The roster, the scores and the accounts -/

/-- Section 7.4, slot 6 asks to leave: WITHDRAWN, its game discarded. -/
theorem test_withdraw :
    let t := after (.rosterWithdraw ind 1) playing
    (t.entry 1).map (·.status) = some .withdrawn ∧ t.roster.queues = ⟨[0], [2]⟩ := by decide +kernel

theorem test_skip : (after (.skip ind 0) playing).roster.queues.get .A = [1, 0] ∧
    lastReply (after (.skip ind 1) playing) = some (.state, []) := by decide +kernel

/-- A team's bowler of the worked sequence of section 7.5. -/
def teamEntry (st : BowlerStatus) (m : Team) (x : Lane) : Option RosterEntry :=
  some ⟨st, some m, x, 0, false, true, true⟩

/-- Section 7.5: slot 3's frame ends on lane B while slots 0, 1 and 2 stand in HANDOVER; the teams
swap. -/
theorem test_teams_swap :
    let s := { playing with
      seqs := playing.seqs.set .A
        { readySeq with state := .held, holds := { HoldSet.empty with handover := true } }
      roster := { playing.roster with
        session := ⟨.cross, .tenPin, 0, .A⟩
        entries := (((playing.roster.entries.set 0 (teamEntry .handover .one .A)).set 1
          (teamEntry .handover .one .A)).set 2 (teamEntry .handover .two .B)).set 3
          (teamEntry .up .two .B)
        queues := ⟨[], [3]⟩, handover1 := [0, 1], handover2 := [2] } }
    let t := frameEnds .B 3 false s
    t.roster.queues = ⟨[2, 3], [0, 1]⟩ ∧ (t.entry 2).map (·.status) = some .up ∧
      (t.seq .A).holds = .empty ∧ (t.seq .A).state = .ready := by decide +kernel

/-- The five balls of section 8.3. -/
def fiveBalls : Bowler :=
  [(1023#10, 0#10, false), (1023, pinSet [3, 6, 10], false), (pinSet [3, 6, 10], 0, false),
    (1023, pinSet [2, 4], true), (1023, pinSet [9, 10], false)].foldl
    (fun g (b, a, f) =>
      recordBall g (ballEntry .tenPin (currentBalls g.current) ⟨0, .A, b, a, f, false, false, none⟩))
    .new

/-- Section 8.3, bonuses settling. -/
theorem test_bonuses : fiveBalls.current.map (fun f => (f.score, f.total)) =
    [(some 20, some 20), (some 10, some 30), (some 8, some 38)] := by decide +kernel

/-- Section 8.3: the marks and values of the five balls. -/
theorem test_marks : (fiveBalls.current.flatMap (·.balls)).map (fun b => (b.value, b.marks.code)) =
    [(10, 1), (7, 0), (3, 2), (0, 4), (8, 0)] := by decide +kernel

/-- Section 8.3: the two tenth frames. -/
theorem test_tenth :
    let nine := List.replicate 9 (⟨[], none, none⟩ : FrameRecord)
    let m := fun strike spare : Bool => { plain with strike := strike, spare := spare }
    frameScore (nine ++ [⟨[pins 10 10 (m true false), pins 10 10 (m true false), pins 10 7 plain],
      none, none⟩]) 10 = 27 ∧
    frameScore (nine ++ [⟨[pins 10 8 plain, pins 2 2 (m false true), pins 10 6 plain],
      none, none⟩]) 10 = 16 := by decide +kernel

/-- Section 10.5: the reply of the five balls is 22 bytes with its head, byte 5 is 01101000, and its
first packed ball is 10, 10 and STRIKE. -/
theorem test_score_read :
    let r := lastReply (after (.scoreRead ind 0 0) (playing.setBowler 0 (some fiveBalls)))
    r.map (fun p => p.2.length + 2) = some 22 ∧ (r.bind fun p => p.2[3]?) = some 0b01101000 ∧
      r.map (fun p => (p.2.drop 10).take 2) = some [0xAA, 0x80] := by decide +kernel

/-- Section 8.7: frame 3, ball 2 to 10 would be a spare; to 6 it is DONE, and frame 3 scores 6. -/
theorem test_correct :
    let s := playing.setBowler 0 (some fiveBalls)
    (correct .desk ⟨0, 0, 3, 2, 10⟩ s).2 = .classChange ∧
      (correct .desk ⟨0, 0, 3, 2, 6⟩ s).2 = .done ∧
      ((correct .desk ⟨0, 0, 3, 2, 6⟩ s).1.bowler 0).map (fun g => g.current.map (·.total)) =
        some [some 20, some 30, some 36] := by decide +kernel

/-- Section 8.7: the rack-first ball of frame 2's spare to 5 leaves every total; a certified
session locks the console. -/
theorem test_correct_spare :
    let s := playing.setBowler 0 (some fiveBalls)
    let t := after (.scoreCorrect ind 0 0 2 1 5) s
    lastReply t = some (.done, []) ∧
      (t.bowler 0).map (fun g => g.current.map (·.total)) = some [some 20, some 30, some 38] ∧
      (correct (.console .A) ⟨0, 0, 2, 1, 3⟩
        { s with score := { s.score with certified := true } }).2 = .locked := by decide +kernel

/-- `priced` at 17:52:30. -/
def evening : State :=
  { priced with account := { priced.account with centre := some ⟨64350, 1000, false⟩ } }

/-- Section 9.7, lane A opened at 17:52:30 in band 0: a meter of 2,400, one minute. -/
theorem test_open :
    let a := (after (.laneOpen ind 0 0 0 5000 0) evening).acct .A
    a.meter = 2400 ∧ a.minutesBilled = 1 ∧ a.credit = some 5000 ∧ a.openedAt = ⟨some 1072, .valid⟩ := by
  decide +kernel

/-- Lane A of section 9.7 with a meter and minutes, at 18:10:20 and closing. -/
def billed (credit meter minutes : Nat) : State :=
  { closing with account :=
      { closing.account with
        centre := some ⟨65420, 1000, false⟩
        accounts := closing.account.accounts.set .A
          { closing.acct .A with credit := some credit, meter := meter, minutesBilled := minutes } } }

/-- Section 9.7: 30 minutes and 1,640 cents; and lane A again, clamped to its credit. -/
theorem test_settlement :
    ((settlement .A (billed 5000 58800 19)).charge, (settlement .A (billed 5000 58800 19)).minutesBilled,
      (settlement .A (billed 5000 58800 19)).clamped) = (1640, 30, false) ∧
    ((settlement .A (billed 100 6000 2)).charge, (settlement .A (billed 100 6000 2)).minutesBilled,
      (settlement .A (billed 100 6000 2)).clamped) = (100, 30, true) := by decide +kernel

/-- Section 10.5: that settlement's bytes. -/
theorem test_settlement_bytes :
    let b := (settlement .A (billed 5000 58800 19)).bytes
    b.length = 25 ∧ b.take 2 = [0, 0] ∧ (b.drop 8).take 2 = [0, 30] ∧
      b.drop 16 = [0, 0, 0x06, 0x68, 0, 0, 0x13, 0x88, 0] := by decide +kernel

/-- R120: the close timeout writes the last ball off and settles. -/
theorem test_close_timeout :
    let t := after (.closeTimeout .A) closing
    (t.acct .A).state = .closed ∧ t.transit.writeOffs = 1 ∧
      ((t.acct .A).last.map (·.writeOffs)) = some true := by decide +kernel

/-- Section 9.7, lane A again: the tick takes the meter to its ceiling of 6,000 and locks the
lane. -/
theorem test_tick_locks :
    let s := (onCredit 100).modAcct .A fun a => { a with meter := 3600, minutesBilled := 1 }
    let a := (chargeMinute .A { s with account := { s.account with bandHold := some 1 } }).acct .A
    a.meter = 6000 ∧ a.minutesBilled = 2 ∧ a.state = .locked := by decide +kernel

/-- Section 9.7, lane B: 500 cents more make the pending charge. -/
theorem test_credit_unlocks :
    let s := (onCredit 1000).modAcct .A fun a =>
      { a with
        method := .perGame, meter := 33000, gamesCharged := 1, state := .locked
        pending := some ⟨0, .game⟩ }
    let s := { s with account := { s.account with bandHold := some 1 } }
    let t := after (.creditAdd ind 0 500) s
    (t.acct .A).meter = 66000 ∧ (t.acct .A).credit = some 1500 ∧ (t.acct .A).gamesCharged = 2 ∧
      (t.acct .A).state = .opened ∧ t.loop.notices.map (·.body) = [.unlock .A .creditAdded] := by
  decide +kernel

/-- R73 and R71: a desk override removed from PAIR_POWER leaves the demand of the lanes. -/
theorem test_override :
    (after (.override ind 0 0) playing).line.outputs.pairPower = false ∧
      (after (.override ind 0 2) playing).line.outputs.pairPower = true := by decide +kernel

/-- R31: an individual RESET answers and holds the slot. -/
theorem test_reset :
    let t := after (.reset ind) base
    lastReply t = some (.done, []) ∧ t.command.slot = some ⟨28, 60, false, .resetting 0⟩ := by
  decide +kernel

/-- R59 and R102: after a warm reset of lanes in play every cell is invalid and the dirty lists are
empty; a CLOSED lane with a start pending is PARKED with nothing to resume. -/
theorem test_warm_reset :
    let t := after .warmReset
      { busy with link := { busy.link with dirty := ⟨[⟨0, 0, .frame 1⟩], []⟩ } }
    (∀ p ∈ [Position.pin .A, .pin .B, .con .A, .con .B], (t.station p).cell = none) ∧
      t.link.dirty = .both [] ∧
      ((after .warmReset
        (base.modSeq .A fun q => { q with startPending := true })).seq .A).resume = none := by
  decide +kernel

/-- R18: at the last pair of its span a group RESET is sent on as the BLANK made before the
reset, with the reply that waited; the queues are empty after it. -/
theorem test_reset_at_span_last :
    let t := commandFrame (frame 1 0 1 [28]) busy
    t.loop.out.map (fun f => (f.kind, f.sequence)) = some (2, 7) ∧ t.loop.replies = [] ∧
      t.loop.notices = [] := by decide +kernel

/-- R67: the inactive edge ends the stuck state though a load has made the line active since; the
load's own stuck timer runs on. -/
theorem test_stuck_released :
    let t := after (.inactiveEdge (.pit .A)) stuckSince
    (t.line.lines.get (.pit .A)).stuck = false ∧ (t.seq .A).pitStuck = false ∧
      (t.line.lines.get (.pit .A)).stuckTimer = some 9000 ∧
      t.loop.notices.map (·.body) = [.lineFault (.pit .A) false] := by decide +kernel

/-- R89 and R87: the timed-out scored ball is void, and the lane is READY again. -/
theorem test_void :
    let t := after (.flightTimeout .A) (overdue [ball])
    (t.seq .A).state = .ready ∧ (t.laneTransit .A).inFlight = [] ∧ (t.laneTransit .A).lost = 1 := by
  decide +kernel

/-- R128: the UP bowler without a ball withdraws at once, and the next one is UP; his pending
charge is cancelled (R170). -/
theorem test_up_withdraws :
    let t := after (.rosterWithdraw ind 0) (upIdle 0 [1] [2])
    (t.entry 0).map (·.status) = some .withdrawn ∧ (t.entry 1).map (·.status) = some .up ∧
      (t.acct .A).state = .opened ∧ (t.acct .A).pending = none := by decide +kernel

/-- R62: an active edge that a sample tick left waiting is taken though a load has turned the
polarity since. -/
theorem test_waiting_edge :
    let s := left (atMs playing 1005) (.launch .A) .active .high 1000
    let t := after (.launch .A) { s with command := { s.command with lines :=
      { s.command.lines with settings := s.command.lines.settings.set (.launch .A) ⟨.low, 3⟩ } } }
    (t.line.lines.get (.launch .A)).events = [] ∧
      (t.laneTransit .A).inFlight.map (·.launch) = [some 1000] := by decide +kernel

/-- R81 and R84: a ball that joins the pit hold of a HELD lane begins a lift of both balls. -/
theorem test_held_lift :
    let t := after (.pitArrival .A) (heldPit 1 playing)
    (t.seq .A).state = .cycling ∧ (t.laneTransit .A).reservation = 2 ∧
      (t.station (.pin .A)).slot.map (·.order) = some (.pin .liftOnly) := by decide +kernel

/-- R106: a ball that meets four in the pit is written off, and a HELD lane begins no lift. -/
theorem test_full_pit :
    let t := after (.pitArrival .A) (heldPit 4 playing)
    (t.seq .A).state = .held ∧ t.transit.writeOffs = 1 ∧ t.transit.inferred = 1 ∧
      (t.laneTransit .A).pitHold.length = 4 := by decide +kernel

/-- R127: an add to a team in HANDOVER joins the tail of its list. -/
theorem test_add_handover :
    let t := after (.rosterAdd ind 1 2) handingOver
    t.roster.handover1 = [0, 1] ∧ t.roster.queues = ⟨[], [2]⟩ ∧
      (t.entry 1).map (fun e => (e.status, e.lane)) = some (.handover, .A) := by decide +kernel

/-- R157 and R158: frame 4 of the stored game falls from 9 to 8, and the total and the series with
it; the first ball of the spare to 5 leaves its rack a spare. -/
theorem test_correct_stored :
    let t := after (.scoreCorrect ind 0 1 4 1 5) corrected
    let u := after (.scoreCorrect ind 0 1 2 1 5) corrected
    ((t.bowler 0).map fun g => (g.stored.map (·.total), g.series)) = some ([96], 299) ∧
      t.loop.notices.map (·.body) = [.correction .desk 0 1 4 1 6 5 (some 96) 299] ∧
      ((u.bowler 0).bind fun g => g.stored.head?).map
          (fun g => (g.total, (g.frames[1]?).map fun f => f.balls.map (·.pinfall))) =
        some (97, some [5, 5]) := by decide +kernel

/-- R143: a frame that has ended on its first ball stays ended when a correction takes pins off
it. -/
theorem test_ended_frame :
    currentFrame [⟨[pins 7 5 plain], some 5, some 5⟩] = 2 ∧
      currentFrameHasBall [⟨[pins 7 5 plain], some 5, some 5⟩] = false := by decide +kernel

/-- R20: a malformed body and a lane past B are RANGE, and change nothing. -/
theorem test_range : lastReply (takeBody ind [19] base) = some (.range, []) ∧
    lastReply (after (.hold ind 2 1) base) = some (.range, []) ∧
    (after (.hold ind 2 1) base).seqs = base.seqs := by decide +kernel

/-- R80 and R81: a HOLD on a READY lane is HELD at once, or lifts the ball in its pit; its release on
the HELD lane is READY. -/
theorem test_hold_moments :
    let held := after (.hold ind 0 1) playing
    let lifting := after (.hold ind 0 1) (playing.modLane .A fun l => { l with pitHold := [ball] })
    (held.seq .A).state = .held ∧ (held.station (.pin .A)).cell = some (.pin false true) ∧
      (lifting.seq .A).state = .cycling ∧
      ((lifting.seq .A).order.map (·.order)) = some .liftOnly ∧
      ((after (.hold ind 0 0) held).seq .A).state = .ready := by decide +kernel

/-- R100's table, at the close timeout. -/
theorem test_park_rows : everyState.map (fun st =>
      ((after (.closeTimeout .A) (timingOut st .ready)).seq .A).state) =
    [.parked, .starting, .parking, .parking, .parking, .parking, .parking, .parking, .cycling, .fault,
      .recover, .parking] ∧
    (∀ st ∈ [SeqState.fault, .recover],
      ((after (.closeTimeout .A) (timingOut st .ready)).seq .A).resume = some .park) := by
  decide +kernel

/-- R175: the arrival that clears the lane closes it: PARKING, with the DONE reply of LANE_CLOSE. -/
theorem test_close_by_arrival :
    let t := after (.reportArrival .ret (report true none 1)) lastArrival
    (t.acct .A).state = .closed ∧ (t.seq .A).state = .parking ∧
      (t.loop.replies.getLast?.map (·.body.take 3)) = some [14, 0, 0] := by decide +kernel

/-- R95: what a LOST at the pinsetter makes of each state; FULL_SET again from STARTING. -/
theorem test_lost_rows : everyState.map (fun st =>
      ((after (.reportWindowClose (.pin .A)) (losing st false false)).seq .A).state) =
    [.parked, .fault, .fault, .fault, .fault, .fault, .fault, .fault, .fault, .fault, .fault, .parked] ∧
    ((after (.reportWindowClose (.pin .A)) (losing .starting false false)).seq .A).resume =
      some .fullSet ∧
    ((after (.reportWindowClose (.pin .A)) (losing .recover false true)).seq .A).state = .parked := by
  decide +kernel

/-- R98: a CALL clears a CYCLE_TIMEOUT and leaves a LINK. -/
theorem test_console_clear :
    let calls := fun c => after (.reportArrival (.con .A) (asks ⟨true, 2, 0, 0, 0, 0, 0⟩))
      ((settled (.con .A) none).modSeq .A fun q => { q with state := .fault, fault := some ⟨c, none⟩ })
    ((calls .cycleTimeout).seq .A).state = .recover ∧ ((calls .link).seq .A).state = .fault ∧
      ((calls .cycleTimeout).loop.notices.map (·.body)) = [.call .A, .faultCleared (.lane .A)] := by
  decide +kernel

/-- Section 5.7: a condition that comes while RESPOT {7} is out is FAULT(STATION) with the RESPOT to
do again, and the slot empty. -/
theorem test_station_fault :
    let t := after (.reportArrival (.pin .A) (conditioned 1))
      (reporting .cycling (some (.respot 64)) .ready)
    (t.seq .A).state = .fault ∧ (t.seq .A).fault = some ⟨.station, some 1⟩ ∧
      (t.seq .A).resume = some (.respot 64) ∧ (t.station (.pin .A)).slot = none ∧
      t.loop.notices.map (·.body) = [.fault .A .station (some 1)] := by decide +kernel

/-- R41: a CALL in the report of the previous ANSWER's DONE is taken, and its answer posted. -/
theorem test_request_after_answer :
    let s := (settled (.con .A) (some ⟨.answer false 1 .done, true, true⟩)).modStation (.con .A)
      fun r => { r with answer := some ⟨false, 1, .done⟩, requestTag := some false }
    let rep : Report := { asks ⟨true, 2, 0, 0, 0, 0, 0⟩ with echo := some ⟨true, .done 0⟩ }
    let r := (after (.reportArrival (.con .A) rep) s).station (.con .A)
    r.slot = some ⟨.answer true 2 .done, false, false⟩ ∧ r.requestTag = some true := by
  decide +kernel

/-- R39 and R82: the wanted order goes out at READY, with the tag opposite to the echo's. -/
theorem test_wanted_order :
    let s := (outside (.pin .A) .lost false).modSeq .A fun q =>
      { q with state := .parking, order := some ⟨.park, false⟩ }
    let t := after (.reportArrival (.pin .A) (report true (some ⟨false, .taken⟩) 0)) s
    (t.station (.pin .A)).slot = some ⟨.pin .park, true, false⟩ ∧
      (t.seq .A).order = some ⟨.park, true⟩ := by decide +kernel

/-! ### The standing causes of R99 and the pit timer of R113 -/

/-- R97's own example: a clear under the latch returns the lane to FAULT(ESTOP); and R99's PARK at a
LOST pinsetter. -/
theorem test_clear_under_latch :
    ((after (.faultClearLane ind .A) (clearing (.respot 5) .ready true false)).seq .A).fault =
      some ⟨.estop, none⟩ ∧
    ((after (.faultClearLane ind .A) (clearing .park .lost false true)).seq .A).state = .parked := by
  decide +kernel

theorem test_pit_timer_starts :
    ((after (.pitArrival .A) (rolling.modLane .A fun l => { l with liftOut := true })).laneTransit
      .A).pitTimer = .running (1000 + rolling.command.timing.pitTimeout) := by decide +kernel

/-- R133: a bowler alone in a CROSS session alternates lanes. -/
theorem test_alone_crosses :
    (frameEnds .A 0 false (alone .cross [] [])).roster.queues = ⟨[], [0]⟩ ∧
    ((frameEnds .A 0 false (alone .cross [] [])).entry 0).map (fun e => (e.status, e.lane)) =
      some (.up, .B) := by decide +kernel

end Sys2Proof.Tests
end

