-- ==== Sys2Proof/Proofs/LaneLoop.lean ====
section
/-! The lane loop: what a good frame does before it is handled, and how a frame that is not
addressed to a pair is handled by its kind (R3, R10, R15, R16). -/

namespace Sys2Proof.Machine

/-! ### The loop state -/

/-- A loop that is UP only has its timer restarted (R15). -/
theorem goodFrame_of_up {s : State} (up : s.loop.up = true) : goodFrame s = s.heard := by
  simp [goodFrame, up, State.modLoop, State.heard]

/-- A loop that was DOWN comes UP with its timer restarted, and the outage is offered after that
(R16). -/
theorem goodFrame_of_down {s : State} (down : ¬ s.loop.up = true) :
    goodFrame s = offer (.loopRestored (min 65535 ((s.now - s.loop.downTime) / 1000)))
      { s.heard with loop := { s.heard.loop with up := true } } := by
  simp [goodFrame, down, State.modLoop, State.heard]

/-! ### The arrival of a good frame, and its handling by kind -/

/-- Outside REPEATER a good frame is handled in the state that its own arrival leaves (R3, R16). -/
theorem exec_loopFrameArrival_of_good {f : Frame} {s : State} (on : s.repeater = false)
    (good : Good f) :
    exec (.loopFrameArrival f) s = .next (finish (handleFrame f (goodFrame s))) := by
  have arrives : frameArrives f s = handleFrame f (goodFrame s) := by
    unfold Good at good
    simp [frameArrives, on, ← good]
  show done (frameArrives f s) = _
  rw [arrives, done_eq]

/-- A good BLANK goes to the insertion rule, whatever its span and length (R10). -/
theorem handleFrame_blank {f : Frame} (blank : f.kind = 0) (s : State) :
    handleFrame f s = sendBlank f s := by
  have wellFormed : malformed f = false := by simp [malformed, blank]
  simp [handleFrame, wellFormed, blank]

/-- A good REPLY or NOTICE is sent on unchanged, whatever its span and length (R10). -/
theorem handleFrame_reply_or_notice {f : Frame} (kind : f.kind = 2 ∨ f.kind = 3) (s : State) :
    handleFrame f s = s.sent f := by
  have repeated : handleFrame f s = sendFrame f s := by
    rcases kind with reply | notice
    · have wellFormed : malformed f = false := by simp [malformed, reply]
      simp [handleFrame, wellFormed, reply]
    · have wellFormed : malformed f = false := by simp [malformed, notice]
      simp [handleFrame, wellFormed, notice]
  rw [repeated]; rfl

/-- Settles O15, by the loop state for the arrival and by the frame's kind for its handling. -/
theorem replyAndNoticeRepeated : Obligations.ReplyAndNoticeRepeated := by
  intro f s on good up outage u
  have arrival : goodFrame s = u := by
    by_cases h : s.loop.up = true
    · rw [goodFrame_of_up h]; exact (if_pos h).symm
    · rw [goodFrame_of_down h]; exact (if_neg h).symm
  have handled := exec_loopFrameArrival_of_good on good
  rw [arrival] at handled
  refine ⟨fun kind => ?_, fun blank => ?_, arrival⟩
  · rw [handled, handleFrame_reply_or_notice kind]
  · rw [handled, handleFrame_blank blank]

end Sys2Proof.Machine
end

/-! Tables: how an individual command that is taken and ends at once is answered (R19 to R21), and
the group set that TABLE_LOAD GROUPS installs (R8, R30). -/

namespace Sys2Proof.Machine

/-! ### An immediate command that the part takes -/

/-- The outcome of an individual command is its reply (R21). -/
theorem conclude_of_individual {h : CommandHead} (individual : h.group = false) (code : Byte)
    (r : State × Status) : conclude h code r = r.1.replied h code r.2 [] := by
  simp only [conclude, answer, individual]; rfl

/-- An immediate command that the part takes is executed and answered as one event (R19, R21). -/
theorem immediate_takes {s : State} {h : CommandHead} (takes : s.Takes h) (code : Byte)
    (act : State → State × Status) :
    immediate h code act s = (act s).1.replied h code (act s).2 [] := by
  have ⟨_, individual, _, _⟩ := takes
  rw [immediate, handCommand_takes takes, conclude_of_individual individual]

/-- An argument that could be read goes to the command's act. -/
theorem immediateOn_some_takes {α : Type} {s : State} {h : CommandHead} (takes : s.Takes h)
    (code : Byte) (a : α) (act : α → State → State × Status) :
    immediateOn h code (some a) act s = (act a s).1.replied h code (act a s).2 [] :=
  immediate_takes takes code (act a)

/-- An argument that could not be read is answered RANGE, and nothing else changes (R20). -/
theorem immediateOn_none_takes {α : Type} {s : State} {h : CommandHead} (takes : s.Takes h)
    (code : Byte) (act : α → State → State × Status) :
    immediateOn h code none act s = s.replied h code .range [] :=
  immediate_takes takes code fun s => (s, .range)

/-! ### The group set of a list (R30) -/

/-- A group list that R30 accepts: its count is right, it has at most 15 ids, and each is in
1..15. -/
def GroupsFit (n : Byte) (ids : List Byte) : Prop :=
  ids.length = n.toNat ∧ n.toNat ≤ 15 ∧ ∀ i ∈ ids, 1 ≤ i.toNat ∧ i.toNat ≤ 15

/-- A group set with the group `i` in it. -/
def addGroup (g : BitVec 16) (i : Byte) : BitVec 16 := g ||| (1#16 <<< i.toNat)

/-- Adding a group adds that group alone, whether or not it was in the set. -/
theorem getLsbD_addGroup (g : BitVec 16) (i : Byte) {k : Nat} (inSet : k < 16) :
    (addGroup g i).getLsbD k = true ↔ g.getLsbD k = true ∨ i.toNat = k := by
  have oneBit : (1#16 <<< i.toNat).getLsbD k = true ↔ i.toNat = k := by
    simp only [BitVec.getLsbD_shiftLeft, BitVec.getLsbD_one, Bool.and_eq_true, Bool.not_eq_true',
      decide_eq_true_eq, decide_eq_false_iff_not]
    omega
  rw [addGroup, BitVec.getLsbD_or, Bool.or_eq_true, oneBit]

/-- A list adds exactly its members to a group set. -/
theorem getLsbD_foldl_addGroup (ids : List Byte) (g : BitVec 16) {k : Nat} (inSet : k < 16) :
    (ids.foldl addGroup g).getLsbD k = true ↔ g.getLsbD k = true ∨ ∃ i ∈ ids, i.toNat = k := by
  induction ids generalizing g with
  | nil => simp
  | cons j rest ih =>
    simp [ih, getLsbD_addGroup g j inSet, or_assoc]

/-- A list that R30 accepts is read as the set of its members. -/
theorem groupsArg_of_fit {n : Byte} {ids : List Byte} (fit : GroupsFit n ids) :
    groupsArg (n :: ids) = some (ids.foldl addGroup 0#16) := by
  obtain ⟨count, few, inRange⟩ := fit
  exact if_pos ⟨count, few, by simpa using inRange⟩

/-- Any other list is not read. -/
theorem groupsArg_of_not_fit {n : Byte} {ids : List Byte} (unfit : ¬ GroupsFit n ids) :
    groupsArg (n :: ids) = none :=
  if_neg fun ⟨count, few, inRange⟩ => unfit ⟨count, few, by simpa using inRange⟩

/-- With an empty group set the part is in group 0 alone (R6, R8). -/
theorem eq_zero_of_inGroup_of_noGroups {group : Byte} {s : State}
    (noGroups : s.loop.groups = 0#16) (member : inGroup group s = true) : group = 0 := by
  simpa [inGroup, noGroups] using member

/-! ### TABLE_LOAD GROUPS (R30) -/

/-- A load that is taken installs the set that its record is read as. -/
theorem exec_tableLoadGroups_of_read {s : State} {h : CommandHead} (takes : s.Takes h)
    {record : List Byte} {g : BitVec 16} (read : groupsArg record = some g) :
    exec (.tableLoadGroups h record) s =
      .next (finish ({ s with loop := { s.loop with groups := g } }.replied h 9 .done [])) := by
  show done (takeGroups h record s) = _
  rw [done_eq, takeGroups, read, immediateOn_some_takes takes]
  rfl

/-- A load that is taken and whose record is not read is refused with RANGE. -/
theorem exec_tableLoadGroups_of_unread {s : State} {h : CommandHead} (takes : s.Takes h)
    {record : List Byte} (unread : groupsArg record = none) :
    exec (.tableLoadGroups h record) s = .next (finish (s.replied h 9 .range [])) := by
  show done (takeGroups h record s) = _
  rw [done_eq, takeGroups, unread, immediateOn_none_takes takes]

/-- Settles O25: the set installed is built member by member from the list, and a list that does
not fit is not read. -/
theorem groupsLoaded : Obligations.GroupsLoaded := by
  intro h n ids s takes fits
  constructor
  · intro fit
    refine ⟨ids.foldl addGroup 0#16, fun k inSet => ?_, fun empty b member => ?_, ?_⟩
    · simpa using getLsbD_foldl_addGroup ids 0#16 inSet
    · subst empty
      exact eq_zero_of_inGroup_of_noGroups rfl member
    · exact exec_tableLoadGroups_of_read takes (groupsArg_of_fit fit)
  · intro unfit
    exact exec_tableLoadGroups_of_unread takes (groupsArg_of_not_fit unfit)

end Sys2Proof.Machine

/-! The output lines: every command ends with them arbitrated (R70), so that after it each stands at
its highest driver, in the terms of R71 to R75. -/

namespace Sys2Proof.Machine

/-! ### The end of an event (R70) -/

/-- Every row has a meaning, and its last act is the end of the event. -/
theorem exec_ends_in_finish (c : Instr) (s : State) : ∃ u, exec c s = .next (finish u) := by
  cases c <;> exact ⟨_, rfl⟩

/-- No driver of an output line is an output line: putting the outputs anew does not change what
they arbitrate to. -/
@[simp] theorem arbitrate_modLineUnit_outputs (s : State) (o : Outputs) :
    arbitrate (s.modLineUnit fun u => { u with outputs := o }) = arbitrate s := rfl

/-- The end of an event leaves the outputs arbitrated, and arbitrating them is its last act. -/
theorem finish_outputsStand (s : State) : (finish s).OutputsStand := by
  unfold finish State.OutputsStand
  rw [arbitrate_modLineUnit_outputs]
  rfl

/-- After every command the outputs stand as arbitrated. -/
theorem outputsStand_of_exec {c : Instr} {s t : State} (run : exec c s = .next t) :
    t.OutputsStand := by
  obtain ⟨u, ends⟩ := exec_ends_in_finish c s
  have isFinish : finish u = t := by simpa [ends] using run
  exact isFinish ▸ finish_outputsStand u

/-! ### The drivers, highest first (R71 to R75) -/

/-- PAIR_POWER: the latch, the override, then an account or a sequencer that is in use (R71). -/
theorem pairPower_eq_highest_driver (s : State) :
    pairPower s =
      if s.line.estop = true then false
      else match s.line.powerOverride with
        | some v => v
        | none => decide ((s.acct .A).state ≠ .closed ∨ (s.acct .B).state ≠ .closed ∨
            (s.seq .A).state ≠ .parked ∨ (s.seq .B).state ≠ .parked) := by
  unfold pairPower
  cases s.line.powerOverride with
  | some v => rfl
  | none => simp only [Bool.decide_or, Bool.or_assoc]

/-- The motor demand: the idle timer or a ball to lift, and an account that is in use (R121). -/
theorem motorDemand_eq_decide (s : State) :
    motorDemand s =
      decide ((s.transit.idleTimer ≠ .stopped ∨ (s.laneTransit .A).pitHold ≠ [] ∨
          (s.laneTransit .B).pitHold ≠ [] ∨ s.transit.track ≠ []) ∧
        ((s.acct .A).state ≠ .closed ∨ (s.acct .B).state ≠ .closed)) := by
  simp only [motorDemand, Bool.decide_and, Bool.decide_or, Bool.or_assoc]

/-- RETURN_MOTOR: the latch, the return fault, the override, then the demand while the pair is
powered (R72). -/
theorem returnMotor_eq_highest_driver (s : State) :
    returnMotor s =
      if s.line.estop = true then false
      else if s.transit.fault ≠ none then false
      else match s.line.motorOverride with
        | some v => v
        | none => decide ((s.transit.idleTimer ≠ .stopped ∨ (s.laneTransit .A).pitHold ≠ [] ∨
              (s.laneTransit .B).pitHold ≠ [] ∨ s.transit.track ≠ []) ∧
            ((s.acct .A).state ≠ .closed ∨ (s.acct .B).state ≠ .closed) ∧
            pairPower s = true) := by
  unfold returnMotor
  cases s.line.motorOverride with
  | some v => rfl
  | none =>
    simp only [motorDemand_eq_decide, ← and_assoc, Bool.decide_and _ (pairPower s = true),
      Bool.decide_eq_true]

/-- DESK_CALL: a call in progress, then a fault of a lane or of the return (R75). -/
theorem deskCall_eq_highest_driver (s : State) :
    deskCall s =
      if s.link.call.a = true ∨ s.link.call.b = true then .steady
      else if (s.seq .A).state = .fault ∨ (s.seq .B).state = .fault ∨ s.transit.fault ≠ none then
        .slow
      else .off := by
  simp only [deskCall, Bool.or_eq_true]

/-- A lamp: the latch, a foul indication, then a faulted or locked lane (R74). The last two drivers
blink alike. -/
theorem lamp_eq_highest_driver (x : Lane) (s : State) :
    lamp x s =
      if s.line.estop = true then .fast
      else if s.line.foulLamp.get x ≠ none then .steady
      else if (s.seq x).state = .fault ∨ (s.acct x).state = .locked then .slow
      else .off := by
  simp only [lamp, Option.isSome_iff_ne_none, ite_or]

/-- The lamps are arbitrated each by its own lane's drivers. -/
theorem arbitrate_lamp_get (x : Lane) (s : State) : (arbitrate s).lamp.get x = lamp x s := by
  cases x <;> rfl

/-- Settles O3: every command ends with the outputs arbitrated, and each line's arbitration is its
highest driver. -/
theorem driversDecide : Obligations.DriversDecide := by
  intro c s t run
  have stand : t.line.outputs = arbitrate t := outputsStand_of_exec run
  rw [stand]
  refine ⟨pairPower_eq_highest_driver t, returnMotor_eq_highest_driver t,
    deskCall_eq_highest_driver t, fun x => ?_⟩
  rw [arbitrate_lamp_get, lamp_eq_highest_driver]

end Sys2Proof.Machine
